-- ==== Sys2Proof/Word.lean ====
section
/-! DEFINITION. The fixed widths of the values that cross the block's interface (spec/00_scope.md R13, spec/30_encoding.md R79). -/

namespace Sys2Proof

/-- A byte of a key, a nonce, a digest, the hash input or the backing store. -/
abbrev Byte := BitVec 8

/-- A 32-bit value: register data, a decoded word, a scrambled index (30_encoding.md R72, R80). -/
abbrev Word := BitVec 32

/-- A 64-bit value: a key half, the nonce, a payload carrier, an RBC state (30_encoding.md R80 to R83). -/
abbrev DWord := BitVec 64

/-- A 39-bit codeword: data in bits 31:0, check bits in bits 38:32 (30_encoding.md R79). -/
abbrev Codeword := BitVec 39

/-- A nibble, the unit of the substitution layers (00_scope.md R13). -/
abbrev Nibble := BitVec 4

end Sys2Proof
end

