-- ==== Sys2Proof/Config.lean ====
section
/-! DEFINITION. The configuration arguments of the model: `ROM_BYTES` (00_scope.md R7), the choice parameters
(R12, decisions D5 to D16 of 92_eei_decisions.md) and the parameter tables (R11). They are fixed for a run; the state carries them in
`State.cfg` and no step changes them (assumption log 1). The default of each stands in Machine/Params.lean. -/

namespace Sys2Proof

/-- A byte order (20_memory.md R61; KEY_BYTE_ORDER, DIGEST_BYTE_ORDER, STORE_BYTE_ORDER). DESIGN CHOICE: only decision D5
names a second value, `BE`, for KEY_BYTE_ORDER; decisions D9 and D12 name the default alone, and that DIGEST_BYTE_ORDER and
STORE_BYTE_ORDER have `big` as their second value is the model's (assumption log 27). -/
inductive ByteOrder
  /-- least significant byte first, the default everywhere -/
  | little
  /-- most significant byte first: the alternative decision D5 names for KEY_BYTE_ORDER; for DIGEST_BYTE_ORDER and
  STORE_BYTE_ORDER the model's choice (assumption log 27) -/
  | big
  deriving DecidableEq, Repr

/-- HASH_FN (43_descrambling_pipeline.md R200, decision D7). -/
inductive HashFn
  /-- cSHAKE256, empty function name, customisation "ROM_CTRL", 256 output bits: the default -/
  | cshake256
  /-- cSHAKE128 with the same strings: the alternative D7 names -/
  | cshake128
  /-- any other function that returns 32 bytes: R200 allows the hash to be taken as opaque (assumption log 10) -/
  | external
  deriving DecidableEq, Repr

/-- HASH_SLOT_FORM (43_descrambling_pipeline.md R198, decision D8, conflict C1). -/
inductive HashSlotForm
  /-- the raw 39-bit scrambled payload: the default -/
  | raw39
  /-- its low 32 bits -/
  | rawLow32
  /-- the decoded 32-bit word -/
  | decoded32
  deriving DecidableEq, Repr

/-- BUS_NARROW (20_memory.md R55, decision D13): the spec gives this one value. -/
inductive BusNarrow
  /-- a bus access of a width other than 32 bits is refused -/
  | refuse
  deriving DecidableEq, Repr

/-- The parameter tables of 00_scope.md R11, each supplied by the spec from general knowledge. The inverse tables
of 40 R102, 41 R132 and 41 R135 are computed from these (assumption log 15). -/
structure Tables where
  /-- PRESENT_SBOX (40_lightweight_block_cipher.md R101) -/
  presentSbox : Vector Nibble 16
  /-- PRINCE_SBOX (41_reflection_cipher.md R131) -/
  princeSbox : Vector Nibble 16
  /-- PRINCE_RC (41_reflection_cipher.md R133) -/
  princeRc : Vector DWord 12
  /-- MPRIME_MASKS, by lane and output nibble (41_reflection_cipher.md R134) -/
  mprimeMasks : Vector (Vector (BitVec 16) 4) 4
  /-- SR_TABLE (41_reflection_cipher.md R135) -/
  srTable : Vector (Fin 16) 16
  /-- HSIAO_MASKS (42_hsiao_secded.md R161) -/
  hsiaoMasks : Vector Word 7
  /-- HSIAO_INV (42_hsiao_secded.md R162) -/
  hsiaoInv : Codeword
  deriving DecidableEq, Repr

/-- The arguments of the model, fixed for a run (10_state.md, opening paragraph). -/
structure Config where
  /-- ROM_BYTES (00_scope.md R7) -/
  romBytes : Nat
  /-- HASH_FN -/
  hashFn : HashFn
  /-- HASH_SLOT_FORM -/
  hashSlotForm : HashSlotForm
  /-- LBC_FLIP (40_lightweight_block_cipher.md R104, decision D10) -/
  lbcFlip : Bool
  /-- KEY_BYTE_ORDER (decision D5) -/
  keyByteOrder : ByteOrder
  /-- DIGEST_BYTE_ORDER (decision D9, which names `LE` only; `big` is DESIGN CHOICE, assumption log 27) -/
  digestByteOrder : ByteOrder
  /-- STORE_BYTE_ORDER (decision D12, which names `LE` only; `big` is DESIGN CHOICE, assumption log 27) -/
  storeByteOrder : ByteOrder
  /-- ALERT_RETRIGGER (44_register_interface.md R211, decision D16) -/
  alertRetrigger : Bool
  /-- BUS_NARROW (decision D13) -/
  busNarrow : BusNarrow
  tables : Tables
  deriving DecidableEq, Repr

/-- FREE VALUE. The hash function of `HashFn.external`: nothing is assumed of it but that it returns 32 bytes
(43_descrambling_pipeline.md R200; assumption log 10). -/
opaque Config.externalHash : List Byte → Vector Byte 32

/-- FREE VALUE. The slot value, under `HashSlotForm.decoded32`, of an accumulator slot of 2^39 or more, to which
43_descrambling_pipeline.md R198 gives no value because no load that reaches LOAD.END holds one (assumption log 11). -/
opaque Config.undecodableSlot : DWord → Word

end Sys2Proof
end

