-- ==== Sys2Proof/Machine/Bits.lean ====
section
/-! DEFINITION. The bit and byte operators of 00_scope.md R13 that the rules use. -/

namespace Sys2Proof.Machine

/-- The number whose bit `i` is `f i` for `i < n` and whose other bits are 0. -/
def natOfBits : Nat → (Nat → Bool) → Nat
  | 0, _ => 0
  | n + 1, f => natOfBits n f + (if f n then 2 ^ n else 0)

/-- The `w`-bit value whose bit `i` is `f i` (`x[i]` of 00_scope.md R13). -/
def ofBits (w : Nat) (f : Nat → Bool) : BitVec w := BitVec.ofNat w (natOfBits w f)

/-- `nib(x, j) = x[4j+3:4j]` (00_scope.md R13). -/
def nib {w : Nat} (x : BitVec w) (j : Nat) : Nibble := x.extractLsb' (4 * j) 4

/-- The 64-bit value whose nibble `j` is `f j`. -/
def ofNibbles (f : Nat → Nibble) : DWord := ofBits 64 fun i => (f (i / 4)).getLsbD (i % 4)

/-- `parity(x)`: the exclusive-or of all bits of `x` (00_scope.md R13). -/
def parity {w : Nat} (x : BitVec w) : Bool :=
  (List.range w).foldl (fun acc i => acc ^^ x.getLsbD i) false

/-- `rotr64(x, n)` (00_scope.md R13). -/
def rotr64 (x : DWord) (n : Nat) : DWord := x.rotateRight n

/-- `LE_k(v)` (00_scope.md R13). -/
def leBytes : (k v : Nat) → List Byte
  | 0, _ => []
  | k + 1, v => BitVec.ofNat 8 v :: leBytes k (v / 256)

/-- `LE_k⁻¹(bytes)` for the `k` bytes given (00_scope.md R13). -/
def ofLeBytes : List Byte → Nat
  | [] => 0
  | b :: bs => b.toNat + 256 * ofLeBytes bs

/-- `LE_k(v)` or `BE_k(v)` (00_scope.md R13), as a byte-order parameter says. -/
def bytesOf (o : ByteOrder) (k v : Nat) : List Byte :=
  match o with
  | .little => leBytes k v
  | .big => (leBytes k v).reverse

/-- The inverse of `bytesOf`. -/
def ofBytes (o : ByteOrder) (bs : List Byte) : Nat :=
  match o with
  | .little => ofLeBytes bs
  | .big => ofLeBytes bs.reverse

/-- The 16-entry table lookup `T[x]` (00_scope.md R13). -/
def lookup (t : Vector Nibble 16) (x : Nibble) : Nibble := t[x.toNat]

/-- The inverse table's entry: the `x` with `T[x] = y` (40_lightweight_block_cipher.md R102, 41_reflection_cipher.md
R132). A table that is no permutation has entries with no such `x`; see assumption log 15. -/
def lookupInv (t : Vector Nibble 16) (y : Nibble) : Nibble := BitVec.ofNat 4 (t.toList.findIdx (· == y))

/-- The substitution layer `Sub(x, w, T)`, `T` given as a function of the nibble: every whole nibble is substituted,
the bits above the last whole nibble are unchanged (40_lightweight_block_cipher.md R103). -/
def subLayer {w : Nat} (t : Nibble → Nibble) (x : BitVec w) : BitVec w :=
  ofBits w fun i => if i < 4 * (w / 4) then (t (nib x (i / 4))).getLsbD (i % 4) else x.getLsbD i

end Sys2Proof.Machine
end

