-- ==== Sys2Proof/Syntax.lean ====
section
/-! DEFINITION. The operations the block accepts, one constructor per row of spec/opcode_table.json
(30_encoding.md R70 to R78), with the operands the row's rule lists. -/

namespace Sys2Proof

/-- The block's operations. BUS writes carry `wdata`; the two default rows carry the unknown `offset`. -/
inductive Instr
  /-- `RD.ALERT_TEST` (44 R210) -/
  | rdAlertTest
  /-- `WR.ALERT_TEST` (44 R211) -/
  | wrAlertTest (wdata : Word)
  /-- `RD.FATAL_ALERT_CAUSE` (44 R212) -/
  | rdFatalAlertCause
  /-- `WR.FATAL_ALERT_CAUSE` (44 R213) -/
  | wrFatalAlertCause (wdata : Word)
  /-- `RD.DIGEST0` (44 R214) -/
  | rdDigest0
  /-- `RD.DIGEST1` (44 R215) -/
  | rdDigest1
  /-- `RD.DIGEST2` (44 R216) -/
  | rdDigest2
  /-- `RD.DIGEST3` (44 R217) -/
  | rdDigest3
  /-- `RD.DIGEST4` (44 R218) -/
  | rdDigest4
  /-- `RD.DIGEST5` (44 R219) -/
  | rdDigest5
  /-- `RD.DIGEST6` (44 R220) -/
  | rdDigest6
  /-- `RD.DIGEST7` (44 R221) -/
  | rdDigest7
  /-- `WR.DIGEST0` (44 R222) -/
  | wrDigest0 (wdata : Word)
  /-- `WR.DIGEST1` (44 R223) -/
  | wrDigest1 (wdata : Word)
  /-- `WR.DIGEST2` (44 R224) -/
  | wrDigest2 (wdata : Word)
  /-- `WR.DIGEST3` (44 R225) -/
  | wrDigest3 (wdata : Word)
  /-- `WR.DIGEST4` (44 R226) -/
  | wrDigest4 (wdata : Word)
  /-- `WR.DIGEST5` (44 R227) -/
  | wrDigest5 (wdata : Word)
  /-- `WR.DIGEST6` (44 R228) -/
  | wrDigest6 (wdata : Word)
  /-- `WR.DIGEST7` (44 R229) -/
  | wrDigest7 (wdata : Word)
  /-- `RD.EXPECTED_DIGEST0` (44 R230) -/
  | rdExpectedDigest0
  /-- `RD.EXPECTED_DIGEST1` (44 R231) -/
  | rdExpectedDigest1
  /-- `RD.EXPECTED_DIGEST2` (44 R232) -/
  | rdExpectedDigest2
  /-- `RD.EXPECTED_DIGEST3` (44 R233) -/
  | rdExpectedDigest3
  /-- `RD.EXPECTED_DIGEST4` (44 R234) -/
  | rdExpectedDigest4
  /-- `RD.EXPECTED_DIGEST5` (44 R235) -/
  | rdExpectedDigest5
  /-- `RD.EXPECTED_DIGEST6` (44 R236) -/
  | rdExpectedDigest6
  /-- `RD.EXPECTED_DIGEST7` (44 R237) -/
  | rdExpectedDigest7
  /-- `WR.EXPECTED_DIGEST0` (44 R238) -/
  | wrExpectedDigest0 (wdata : Word)
  /-- `WR.EXPECTED_DIGEST1` (44 R239) -/
  | wrExpectedDigest1 (wdata : Word)
  /-- `WR.EXPECTED_DIGEST2` (44 R240) -/
  | wrExpectedDigest2 (wdata : Word)
  /-- `WR.EXPECTED_DIGEST3` (44 R241) -/
  | wrExpectedDigest3 (wdata : Word)
  /-- `WR.EXPECTED_DIGEST4` (44 R242) -/
  | wrExpectedDigest4 (wdata : Word)
  /-- `WR.EXPECTED_DIGEST5` (44 R243) -/
  | wrExpectedDigest5 (wdata : Word)
  /-- `WR.EXPECTED_DIGEST6` (44 R244) -/
  | wrExpectedDigest6 (wdata : Word)
  /-- `WR.EXPECTED_DIGEST7` (44 R245) -/
  | wrExpectedDigest7 (wdata : Word)
  /-- `RD.UNKNOWN` (44 R246) -/
  | rdUnknown (offset : Word)
  /-- `WR.UNKNOWN` (44 R247) -/
  | wrUnknown (offset : Word) (wdata : Word)
  /-- `SETKEY` (43 R181) -/
  | setKey (kbytes : List Byte)
  /-- `SETNONCE` (43 R182) -/
  | setNonce (nbytes : List Byte)
  /-- `LOAD.BEGIN` (43 R186) -/
  | loadBegin
  /-- `LOAD.WORD` (43 R187 to R190) -/
  | loadWord (sidx : Word) (spay : DWord)
  /-- `LOAD.END` (43 R196) -/
  | loadEnd
  /-- `RESET` (70 R281) -/
  | reset
  /-- `LBC.ENC` (40 R107) -/
  | lbcEnc (data key width rounds : Nat)
  /-- `LBC.DEC` (40 R108) -/
  | lbcDec (data key width rounds : Nat)
  /-- `RBC.ENC` (41 R139), its operands in the order of the source's contract -/
  | rbcEnc (data k1 k0 : DWord) (width rounds : Nat)
  /-- `ECC.ADD` (42 R163) -/
  | eccAdd (word : Word)
  /-- `ECC.CHK` (42 R164) -/
  | eccChk (value : Codeword)
  deriving DecidableEq, Repr

end Sys2Proof
end

