-- ==== Sys2Proof/WellFormed.lean ====
section
/-! DEFINITION. Which terms of `Instr` are operations of the block: the two default rows stand only for offsets that
are not in the register map (30_encoding.md R71, R72; 44_register_interface.md R246, R247). Every other constructor's
operand types already say all the spec asks of it. -/

namespace Sys2Proof

/-- The offset is in the register map: 0x00 to 0x44 in steps of 4 (20_memory.md R54, 30_encoding.md R72). -/
def isRegisterOffset (offset : Word) : Bool :=
  offset.toNat % 4 == 0 && decide (offset.toNat ≤ 0x44)

/-- The term names an operation of the block. -/
def Instr.wf : Instr → Bool
  | .rdUnknown offset => !isRegisterOffset offset
  | .wrUnknown offset _ => !isRegisterOffset offset
  | _ => true

end Sys2Proof
end

