-- ==== Sys2Proof/Decode.lean ====
section
/-! DEFINITION. What an agent presents at the block's interface, the decoder (30_encoding.md R70, R71, R77, R78, R85)
and the encoder. The spec gives bit layouts to the BUS descriptor and to the HOST and PRIM ids only; the operands are
typed values beside them (assumption log 3). Decoding is total: every request is an operation or is
rejected under one of two names. -/

namespace Sys2Proof

/-- The three operation formats (30_encoding.md R70). -/
inductive Format
  | bus
  | host
  | prim
  deriving DecidableEq, Repr

/-- The operand values that accompany a descriptor or an id. Each operation reads those its row lists and no other
(30_encoding.md R71, R77, R78); one that is not presented is zero. -/
structure Operands where
  /-- write data of a BUS write (R71) -/
  wdata : Word := 0
  /-- `kbytes` of SETKEY, `nbytes` of SETNONCE (R77) -/
  bytes : List Byte := []
  /-- scrambled index of LOAD.WORD (R80) -/
  sidx : Word := 0
  /-- scrambled payload of LOAD.WORD in its 64-bit carrier (R80) -/
  spay : DWord := 0
  /-- `data` of LBC.ENC and LBC.DEC (40 R100) -/
  lbcData : Nat := 0
  /-- `key` of LBC.ENC and LBC.DEC (40 R100) -/
  lbcKey : Nat := 0
  /-- `width` of LBC.ENC and LBC.DEC (40 R100) -/
  lbcWidth : Nat := 0
  /-- `rounds` of LBC.ENC, LBC.DEC and RBC.ENC (40 R100, 41 R130) -/
  rounds : Nat := 0
  /-- `data` of RBC.ENC (41 R130) -/
  rbcData : DWord := 0
  /-- `k1` of RBC.ENC (41 R130) -/
  rbcK1 : DWord := 0
  /-- `k0` of RBC.ENC (41 R130) -/
  rbcK0 : DWord := 0
  /-- `width` of RBC.ENC, an argument that is 64 when it is not given (41 R130, decision D23) -/
  rbcWidth : Option Nat := none
  /-- `word` of ECC.ADD (42 R160) -/
  word : Word := 0
  /-- `value` of ECC.CHK (42 R160) -/
  value : Codeword := 0
  deriving DecidableEq, Repr

/-- One operation as an agent issues it. -/
inductive Request
  /-- a bus access of `width` bits with its 33-bit descriptor (30_encoding.md R71) -/
  | bus (width : Nat) (descriptor : BitVec 33) (operands : Operands)
  /-- a host operation by its 8-bit id (R77) -/
  | host (id : Byte) (operands : Operands)
  /-- a primitive call by its 8-bit id (R78) -/
  | prim (id : Byte) (operands : Operands)
  deriving DecidableEq, Repr

/-- Why a request is no operation of the table. -/
inductive DecodeError
  /-- a bus access of a width other than 32 bits (20_memory.md R55; 44_register_interface.md R206 step 1) -/
  | narrowAccess
  /-- a HOST or PRIM id that is in neither table (30_encoding.md R85) -/
  | unknownOperation
  deriving DecidableEq, Repr

/-- One exact BUS row of opcode_table.json: its descriptor (mask 0x1FFFFFFFF) and the operation it selects. -/
structure BusRow where
  descriptor : BitVec 33
  make : Word → Instr

/-- AlertTest and FatalAlertCause (30_encoding.md R72 to R74). -/
def alertRows : List BusRow := [
  ⟨0x000000000, fun _ => .rdAlertTest⟩,
  ⟨0x100000000, fun w => .wrAlertTest w⟩,
  ⟨0x000000004, fun _ => .rdFatalAlertCause⟩,
  ⟨0x100000004, fun w => .wrFatalAlertCause w⟩]

/-- Reads of Digest0 to Digest7 (30_encoding.md R75). -/
def digestReadRows : List BusRow := [
  ⟨0x000000008, fun _ => .rdDigest0⟩,
  ⟨0x00000000C, fun _ => .rdDigest1⟩,
  ⟨0x000000010, fun _ => .rdDigest2⟩,
  ⟨0x000000014, fun _ => .rdDigest3⟩,
  ⟨0x000000018, fun _ => .rdDigest4⟩,
  ⟨0x00000001C, fun _ => .rdDigest5⟩,
  ⟨0x000000020, fun _ => .rdDigest6⟩,
  ⟨0x000000024, fun _ => .rdDigest7⟩]

/-- Writes to Digest0 to Digest7 (30_encoding.md R75). -/
def digestWriteRows : List BusRow := [
  ⟨0x100000008, fun w => .wrDigest0 w⟩,
  ⟨0x10000000C, fun w => .wrDigest1 w⟩,
  ⟨0x100000010, fun w => .wrDigest2 w⟩,
  ⟨0x100000014, fun w => .wrDigest3 w⟩,
  ⟨0x100000018, fun w => .wrDigest4 w⟩,
  ⟨0x10000001C, fun w => .wrDigest5 w⟩,
  ⟨0x100000020, fun w => .wrDigest6 w⟩,
  ⟨0x100000024, fun w => .wrDigest7 w⟩]

/-- Reads of ExpectedDigest0 to ExpectedDigest7 (30_encoding.md R76). -/
def expectedReadRows : List BusRow := [
  ⟨0x000000028, fun _ => .rdExpectedDigest0⟩,
  ⟨0x00000002C, fun _ => .rdExpectedDigest1⟩,
  ⟨0x000000030, fun _ => .rdExpectedDigest2⟩,
  ⟨0x000000034, fun _ => .rdExpectedDigest3⟩,
  ⟨0x000000038, fun _ => .rdExpectedDigest4⟩,
  ⟨0x00000003C, fun _ => .rdExpectedDigest5⟩,
  ⟨0x000000040, fun _ => .rdExpectedDigest6⟩,
  ⟨0x000000044, fun _ => .rdExpectedDigest7⟩]

/-- Writes to ExpectedDigest0 to ExpectedDigest7 (30_encoding.md R76). -/
def expectedWriteRows : List BusRow := [
  ⟨0x100000028, fun w => .wrExpectedDigest0 w⟩,
  ⟨0x10000002C, fun w => .wrExpectedDigest1 w⟩,
  ⟨0x100000030, fun w => .wrExpectedDigest2 w⟩,
  ⟨0x100000034, fun w => .wrExpectedDigest3 w⟩,
  ⟨0x100000038, fun w => .wrExpectedDigest4 w⟩,
  ⟨0x10000003C, fun w => .wrExpectedDigest5 w⟩,
  ⟨0x100000040, fun w => .wrExpectedDigest6 w⟩,
  ⟨0x100000044, fun w => .wrExpectedDigest7 w⟩]

/-- The 36 exact BUS rows (30_encoding.md R72). -/
def busRows : List BusRow :=
  alertRows ++ digestReadRows ++ digestWriteRows ++ expectedReadRows ++ expectedWriteRows

/-- Bit 32 of a descriptor: 1 is a write (30_encoding.md R71). -/
def descriptorIsWrite (descriptor : BitVec 33) : Bool := descriptor.getLsbD 32

/-- Bits 31:0 of a descriptor: the byte offset (30_encoding.md R71). -/
def descriptorOffset (descriptor : BitVec 33) : Word := descriptor.extractLsb' 0 32

/-- Row selection for a 32-bit bus access: the exact row where there is one, else the default row of its direction
(30_encoding.md R71; 44_register_interface.md R206 step 2). -/
def decodeBus (descriptor : BitVec 33) (wdata : Word) : Instr :=
  match busRows.find? (fun r => r.descriptor == descriptor) with
  | some r => r.make wdata
  | none =>
    if descriptorIsWrite descriptor then .wrUnknown (descriptorOffset descriptor) wdata
    else .rdUnknown (descriptorOffset descriptor)

/-- The HOST operation ids (30_encoding.md R77). -/
def decodeHost (id : Byte) (x : Operands) : Option Instr :=
  if id = 0x01 then some (.setKey x.bytes)
  else if id = 0x02 then some (.setNonce x.bytes)
  else if id = 0x10 then some .loadBegin
  else if id = 0x11 then some (.loadWord x.sidx x.spay)
  else if id = 0x12 then some .loadEnd
  else if id = 0x20 then some .reset
  else none

/-- The PRIM operation ids (30_encoding.md R78). -/
def decodePrim (id : Byte) (x : Operands) : Option Instr :=
  if id = 0x40 then some (.lbcEnc x.lbcData x.lbcKey x.lbcWidth x.rounds)
  else if id = 0x41 then some (.lbcDec x.lbcData x.lbcKey x.lbcWidth x.rounds)
  else if id = 0x50 then some (.rbcEnc x.rbcData x.rbcK1 x.rbcK0 (x.rbcWidth.getD 64) x.rounds)
  else if id = 0x60 then some (.eccAdd x.word)
  else if id = 0x61 then some (.eccChk x.value)
  else none

/-- The decoder: every request is an operation or is rejected by name (30_encoding.md R71, R77, R78, R85). -/
def decode : Request → Except DecodeError Instr
  | .bus width descriptor x =>
    if width = 32 then .ok (decodeBus descriptor x.wdata) else .error .narrowAccess
  | .host id x =>
    match decodeHost id x with
    | some i => .ok i
    | none => .error .unknownOperation
  | .prim id x =>
    match decodePrim id x with
    | some i => .ok i
    | none => .error .unknownOperation

/-- A 32-bit bus read at a byte offset (30_encoding.md R71). -/
def readRequest (offset : Word) : Request := .bus 32 (0#1 ++ offset) {}

/-- A 32-bit bus write at a byte offset (30_encoding.md R71). -/
def writeRequest (offset wdata : Word) : Request := .bus 32 (1#1 ++ offset) { wdata := wdata }

/-- The encoder: the request that stands for an operation (30_encoding.md R71, R72, R77, R78). -/
def encode : Instr → Request
  | .rdAlertTest => readRequest 0x00
  | .wrAlertTest wdata => writeRequest 0x00 wdata
  | .rdFatalAlertCause => readRequest 0x04
  | .wrFatalAlertCause wdata => writeRequest 0x04 wdata
  | .rdDigest0 => readRequest 0x08
  | .rdDigest1 => readRequest 0x0C
  | .rdDigest2 => readRequest 0x10
  | .rdDigest3 => readRequest 0x14
  | .rdDigest4 => readRequest 0x18
  | .rdDigest5 => readRequest 0x1C
  | .rdDigest6 => readRequest 0x20
  | .rdDigest7 => readRequest 0x24
  | .wrDigest0 wdata => writeRequest 0x08 wdata
  | .wrDigest1 wdata => writeRequest 0x0C wdata
  | .wrDigest2 wdata => writeRequest 0x10 wdata
  | .wrDigest3 wdata => writeRequest 0x14 wdata
  | .wrDigest4 wdata => writeRequest 0x18 wdata
  | .wrDigest5 wdata => writeRequest 0x1C wdata
  | .wrDigest6 wdata => writeRequest 0x20 wdata
  | .wrDigest7 wdata => writeRequest 0x24 wdata
  | .rdExpectedDigest0 => readRequest 0x28
  | .rdExpectedDigest1 => readRequest 0x2C
  | .rdExpectedDigest2 => readRequest 0x30
  | .rdExpectedDigest3 => readRequest 0x34
  | .rdExpectedDigest4 => readRequest 0x38
  | .rdExpectedDigest5 => readRequest 0x3C
  | .rdExpectedDigest6 => readRequest 0x40
  | .rdExpectedDigest7 => readRequest 0x44
  | .wrExpectedDigest0 wdata => writeRequest 0x28 wdata
  | .wrExpectedDigest1 wdata => writeRequest 0x2C wdata
  | .wrExpectedDigest2 wdata => writeRequest 0x30 wdata
  | .wrExpectedDigest3 wdata => writeRequest 0x34 wdata
  | .wrExpectedDigest4 wdata => writeRequest 0x38 wdata
  | .wrExpectedDigest5 wdata => writeRequest 0x3C wdata
  | .wrExpectedDigest6 wdata => writeRequest 0x40 wdata
  | .wrExpectedDigest7 wdata => writeRequest 0x44 wdata
  | .rdUnknown offset => readRequest offset
  | .wrUnknown offset wdata => writeRequest offset wdata
  | .setKey kbytes => .host 0x01 { bytes := kbytes }
  | .setNonce nbytes => .host 0x02 { bytes := nbytes }
  | .loadBegin => .host 0x10 {}
  | .loadWord sidx spay => .host 0x11 { sidx := sidx, spay := spay }
  | .loadEnd => .host 0x12 {}
  | .reset => .host 0x20 {}
  | .lbcEnc data key width rounds =>
    .prim 0x40 { lbcData := data, lbcKey := key, lbcWidth := width, rounds := rounds }
  | .lbcDec data key width rounds =>
    .prim 0x41 { lbcData := data, lbcKey := key, lbcWidth := width, rounds := rounds }
  | .rbcEnc data k1 k0 width rounds =>
    .prim 0x50 { rbcData := data, rbcK1 := k1, rbcK0 := k0, rbcWidth := some width, rounds := rounds }
  | .eccAdd word => .prim 0x60 { word := word }
  | .eccChk value => .prim 0x61 { value := value }

/-- The format a request is presented in (30_encoding.md R70). -/
def Request.format : Request → Format
  | .bus .. => .bus
  | .host .. => .host
  | .prim .. => .prim

/-- The "format" column of opcode_table.json. -/
def Instr.format : Instr → Format
  | .setKey _ => .host
  | .setNonce _ => .host
  | .loadBegin => .host
  | .loadWord _ _ => .host
  | .loadEnd => .host
  | .reset => .host
  | .lbcEnc .. => .prim
  | .lbcDec .. => .prim
  | .rbcEnc .. => .prim
  | .eccAdd _ => .prim
  | .eccChk _ => .prim
  | _ => .bus

/-- The pseudo-operation `LOAD <image>` as the operations it expands to (30_encoding.md R88). -/
def expandLoad (image : List (Word × DWord)) : List Request :=
  encode .loadBegin :: (image.map fun e => encode (.loadWord e.1 e.2)) ++ [encode .loadEnd]

/-- Operands of zeros for a HOST id: the byte strings of SETKEY and SETNONCE have the lengths the table gives them
(opcode_table.json, "source_fields"). -/
def zeroOperands (id : Byte) : Operands :=
  { bytes := List.replicate (if id = 0x01 then 16 else if id = 0x02 then 8 else 0) 0 }

/-- The request whose bits opcode_table.json numbers as `w`, its operands zero: a row of one byte is a HOST or PRIM id,
a longer one a BUS descriptor (assumption log 3). -/
def requestOfTableWord (nbits w : Nat) : Request :=
  if nbits ≤ 8 then
    let id := BitVec.ofNat 8 w
    if (decodePrim id {}).isSome then .prim id {} else .host id (zeroOperands id)
  else .bus 32 (BitVec.ofNat 33 w) {}

/-- The operation the decoder reads from a word numbered as opcode_table.json numbers it. -/
def decodeTableWord (nbits w : Nat) : Option Instr :=
  if w < 2 ^ (if nbits ≤ 8 then 8 else 33) then (decode (requestOfTableWord nbits w)).toOption else none

end Sys2Proof
end

