-- ==== Sys2Proof/Machine/Params.lean ====
section
/-! DEFINITION. The numbers derived from the configuration (00_scope.md R7 to R9), the fixed constants of the block
(R10), and the default of every parameter and table (R11, R12). -/

namespace Sys2Proof.Machine

/-! ### Sizes -/

/-- `ROM_BYTES > 32` and `ROM_BYTES mod 4 = 0` (00_scope.md R7). -/
def romSizeOk (c : Config) : Bool := decide (32 < c.romBytes) && c.romBytes % 4 == 0

/-- `N`, the number of words of the backing store (00_scope.md R8). -/
def romWords (c : Config) : Nat := c.romBytes / 4

/-- The least `w` from `w` on with `n ≤ 2^w`, looked for `fuel` times. -/
def searchWidth (n : Nat) : (fuel w : Nat) → Nat
  | 0, w => w
  | fuel + 1, w => if n ≤ 2 ^ w then w else searchWidth n fuel (w + 1)

/-- `W`, the least `w` with `2^w ≥ N − 1` (00_scope.md R9). -/
def indexWidth (c : Config) : Nat := searchWidth (romWords c - 1) (romWords c - 1) 0

/-- `DIGEST_WORDS` (00_scope.md R10). -/
def digestWords : Nat := 8

/-- `PAYLOAD_WORDS = N − 8` (00_scope.md R10). -/
def payloadWords (c : Config) : Nat := romWords c - digestWords

/-- `CW`, the width of a codeword (00_scope.md R10). -/
def codewordWidth : Nat := 39

/-- `ADDR_ROUNDS` (00_scope.md R10). -/
def addrRounds : Nat := 2

/-- `DATA_ROUNDS` (00_scope.md R10). -/
def dataRounds : Nat := 2

/-- `RBC_ROUNDS` (00_scope.md R10). -/
def rbcRounds : Nat := 6

/-- `HASH_CUSTOM`, the ASCII string "ROM_CTRL" (00_scope.md R10). -/
def hashCustom : List Byte := [0x52, 0x4F, 0x4D, 0x5F, 0x43, 0x54, 0x52, 0x4C]

/-! ### Default tables -/

/-- PRESENT_SBOX (40_lightweight_block_cipher.md R101). -/
def presentSbox : Vector Nibble 16 :=
  #v[0xC, 0x5, 0x6, 0xB, 0x9, 0x0, 0xA, 0xD, 0x3, 0xE, 0xF, 0x8, 0x4, 0x7, 0x1, 0x2]

/-- PRINCE_SBOX (41_reflection_cipher.md R131). -/
def princeSbox : Vector Nibble 16 :=
  #v[0xB, 0xF, 0x3, 0x2, 0xA, 0xC, 0x9, 0x1, 0x6, 0x7, 0x8, 0x0, 0xE, 0x5, 0xD, 0x4]

/-- PRINCE_RC (41_reflection_cipher.md R133). -/
def princeRc : Vector DWord 12 :=
  #v[0x0000000000000000, 0x13198A2E03707344, 0xA4093822299F31D0, 0x082EFA98EC4E6C89,
     0x452821E638D01377, 0xBE5466CF34E90C6C, 0x7EF84F78FD955CB1, 0x85840851F1AC43AA,
     0xC882D32F25323C54, 0x64A51195E0E3610D, 0xD3B5A399CA0C2399, 0xC0AC29B7C97C50DD]

/-- MPRIME_MASKS (41_reflection_cipher.md R134). -/
def mprimeMasks : Vector (Vector (BitVec 16) 4) 4 :=
  #v[#v[0xE7BD, 0xDE7B, 0xBDE7, 0x7BDE],
     #v[0x7BDE, 0xE7BD, 0xDE7B, 0xBDE7],
     #v[0x7BDE, 0xE7BD, 0xDE7B, 0xBDE7],
     #v[0xE7BD, 0xDE7B, 0xBDE7, 0x7BDE]]

/-- SR_TABLE (41_reflection_cipher.md R135). -/
def srTable : Vector (Fin 16) 16 := #v[4, 9, 14, 3, 8, 13, 2, 7, 12, 1, 6, 11, 0, 5, 10, 15]

/-- HSIAO_MASKS (42_hsiao_secded.md R161). -/
def hsiaoMasks : Vector Word 7 :=
  #v[0x2606BD25, 0xDEBA8050, 0x413D89AA, 0x31234ED1, 0xC2C1323B, 0x2DCC624C, 0x98505586]

/-- HSIAO_INV (42_hsiao_secded.md R162). -/
def hsiaoInv : Codeword := 0x2A00000000

/-- The default of every table of 00_scope.md R11. -/
def defaultTables : Tables where
  presentSbox := presentSbox
  princeSbox := princeSbox
  princeRc := princeRc
  mprimeMasks := mprimeMasks
  srTable := srTable
  hsiaoMasks := hsiaoMasks
  hsiaoInv := hsiaoInv

/-! ### Default configuration -/

/-- DESIGN CHOICE (assumption log 1): the ROM_BYTES of `State.reset`, the §8 fixture's 64 words
(95_test_vectors.md V4). The spec gives ROM_BYTES no default (00_scope.md R7). -/
def defaultRomBytes : Nat := 256

/-- The defaults of 00_scope.md R12. -/
def defaultConfig : Config where
  romBytes := defaultRomBytes
  hashFn := .cshake256
  hashSlotForm := .raw39
  lbcFlip := true
  keyByteOrder := .little
  digestByteOrder := .little
  storeByteOrder := .little
  alertRetrigger := true
  busNarrow := .refuse
  tables := defaultTables

end Sys2Proof.Machine
end

