-- ==== Sys2Proof/Machine/State.lean ====
section
/-! DEFINITION. The block's state as plain data (10_state.md), the reasons a step can stop, and the state at power-on
(R36, 60_exceptions.md R251). -/

namespace Sys2Proof.Machine

/-- The lifecycle phase (10_state.md R23). -/
inductive Phase
  | idle
  | loading
  | loaded
  | failed
  deriving DecidableEq, Repr

/-- The fatal codes (60_exceptions.md R258). -/
inductive FatalCode
  /-- FATAL_ROM_SIZE, code 1 (R251) -/
  | romSize
  /-- FATAL_KEY_FORMAT, code 2 (R252) -/
  | keyFormat
  /-- FATAL_NONCE_FORMAT, code 3 (R253) -/
  | nonceFormat
  /-- FATAL_INDEX_WIDTH, code 4 (R254) -/
  | indexWidth
  /-- FATAL_INDEX_RANGE, code 5 (R256) -/
  | indexRange
  /-- FATAL_PAYLOAD_WIDTH, code 6 (R257) -/
  | payloadWidth
  deriving DecidableEq, Repr

/-- The numeric code of each fatal error (60_exceptions.md R258). -/
def FatalCode.number : FatalCode → Nat
  | .romSize => 1
  | .keyFormat => 2
  | .nonceFormat => 3
  | .indexWidth => 4
  | .indexRange => 5
  | .payloadWidth => 6

/-- The pair `(code, info)` that `raise Fatal` records (10_state.md R32). -/
structure FatalRecord where
  code : FatalCode
  info : Nat
  deriving DecidableEq, Repr

/-- The warning codes (60_exceptions.md R259). -/
inductive WarningCode
  /-- `W_ECC`, info the logical index -/
  | ecc
  /-- `W_UNKNOWN_OFFSET`, info the offset -/
  | unknownOffset
  deriving DecidableEq, Repr

/-- An entry of the warning log (10_state.md R33). -/
structure Warning where
  code : WarningCode
  info : Nat
  deriving DecidableEq, Repr

/-- What an operation returns to its caller (44_register_interface.md, opening; 30_encoding.md R78). -/
inductive Response
  /-- `rdata` of a bus read -/
  | rdata (v : Word)
  /-- the `width`-bit value of LBC.ENC or LBC.DEC, or the 64-bit value of RBC.ENC -/
  | value (v : DWord)
  /-- `Err(LbcDomain)` (40_lightweight_block_cipher.md R107) -/
  | lbcDomain
  /-- the 39-bit codeword of ECC.ADD -/
  | codeword (v : Codeword)
  /-- the Boolean of ECC.CHK -/
  | check (ok : Bool)
  deriving DecidableEq, Repr

/-- Why the machine stops with a fault. -/
inductive Fault
  /-- Raised by `memWrite` for a write that is not inside `0 .. ROM_BYTES − 1`, addresses 20_memory.md R51 gives the
  backing store no byte at. Safe. R53: no operation of the block makes such a write. -/
  | storeOutOfRange (addr : Nat)
  /-- Raised by `idleStep` in a state that records a fatal error: such a state is a fault, never final (60_exceptions.md
  R250; assumption log 6). Safe. -/
  | fatalError (record : FatalRecord)
  deriving DecidableEq, Repr

/-- Why an operation is refused: the closed list of 60_exceptions.md R255, and the rejection of an operation the model
has no meaning for. -/
inductive Refusal
  /-- Raised by an arm of `exec` for an instruction without a meaning; no arm does. Safe. -/
  | notModelled (mnemonic : String)
  /-- Raised by `refuseUndecoded`: a bus access of width other than 32 bits (20_memory.md R55). Safe. -/
  | narrowAccess
  /-- Raised by `refuseUndecoded`: a HOST or PRIM id in no table (30_encoding.md R85). Safe. -/
  | unknownOperation
  /-- Raised by LBC.ENC and LBC.DEC with `key ≥ 2^width` (40_lightweight_block_cipher.md R107, R108). Safe. -/
  | lbcKeyWidth
  /-- Raised by RBC.ENC with odd `rounds` or `rounds > 10` (41_reflection_cipher.md R139). Safe. -/
  | rbcRounds
  /-- Raised by RBC.ENC with `width ≠ 64` (41_reflection_cipher.md R130). Safe. -/
  | rbcWidth
  /-- Raised by SETKEY and SETNONCE outside Idle or a second time (43_descrambling_pipeline.md R181, R182). Safe. -/
  | configState
  /-- Raised by LOAD.BEGIN before both key and nonce are set (43_descrambling_pipeline.md R186). Safe. -/
  | unconfigured
  /-- Raised by LOAD.BEGIN outside Idle, LOAD.WORD and LOAD.END outside Loading, RESET in Loading (R186, R187, R196 of
  43_descrambling_pipeline.md; 70_reset_and_hazards.md R281). Safe. -/
  | loadState
  /-- Raised by every bus access in Loading (44_register_interface.md R205). Safe. -/
  | busDuringLoad
  /-- Raised by every operation in Failed (60_exceptions.md R250). Safe. -/
  | afterFault
  deriving DecidableEq, Repr

/-- The backing store's bytes by address (20_memory.md R51): addresses strictly rising, an unlisted address holds no
value the model knows (10_state.md R35; assumption log 7). -/
abbrev Memory := List Host.Cell

/-- The block's state (10_state.md), and three fields of the model's own: `cfg`, `pending` and `responses`. -/
structure State where
  /-- the arguments of the model, fixed for a run (10_state.md, opening; assumption log 1) -/
  cfg : Config
  /-- R23 -/
  phase : Phase
  /-- R24 -/
  keySet : Bool
  /-- R24 -/
  k0 : DWord
  /-- R24 -/
  k1 : DWord
  /-- R25 -/
  nonceSet : Bool
  /-- R25 -/
  nonce : DWord
  /-- R25: a `W`-bit value in a 64-bit carrier -/
  addrKey : DWord
  /-- R25: its low `W` bits are zero -/
  dataNonce : DWord
  /-- R26: slot `i` holds the raw scrambled payload of logical index `i` -/
  acc : List DWord
  /-- R27 -/
  expected : Vector Word 8
  /-- R28 -/
  observed : Vector Word 8
  /-- R29 -/
  checkerError : Bool
  /-- R30 -/
  integrityError : Bool
  /-- R31 -/
  alertLatched : Bool
  /-- R32 -/
  fatal : Option FatalRecord
  /-- R33, oldest first -/
  warnings : List Warning
  /-- R34 -/
  alertEvents : Nat
  /-- R35: the external backing store -/
  store : Memory
  /-- the operations issued and not yet served, oldest first (00_scope.md R16; assumption log 2) -/
  pending : List Request
  /-- the values returned to callers, oldest first, observation only (assumption log 4) -/
  responses : List Response
  deriving DecidableEq, Repr

/-- What a meaning or a step answers. -/
abbrev StepResult := Host.Outcome State Fault Refusal

/-- Construction of the block with given arguments: the power-on state of 10_state.md R36, or, where ROM_BYTES is not
admitted, the failed state of 60_exceptions.md R251. DESIGN CHOICE (assumption log 5): the five key and nonce fields,
which hold no value until they are set, are 0. -/
def State.construct (c : Config) : State where
  cfg := c
  phase := if romSizeOk c then .idle else .failed
  keySet := false
  k0 := 0
  k1 := 0
  nonceSet := false
  nonce := 0
  addrKey := 0
  dataNonce := 0
  acc := List.replicate (payloadWords c) 0
  expected := Vector.replicate 8 0
  observed := Vector.replicate 8 0
  checkerError := false
  integrityError := false
  alertLatched := false
  fatal := if romSizeOk c then none else some ⟨.romSize, c.romBytes⟩
  warnings := []
  alertEvents := 0
  store := []
  pending := []
  responses := []

/-- The machine right after power-on with the default configuration (10_state.md R36, 00_scope.md R12; ROM_BYTES:
assumption log 1). -/
def State.reset : State := State.construct defaultConfig

end Sys2Proof.Machine
end

