-- ==== Sys2Proof/Machine/Ops.lean ====
section
/-! DEFINITION. The named operations over the state: serving a request, the pseudocode primitives of 00_scope.md R14
(`MemWrite`, `raise Fatal`, `warn`, `emit Alert`), the admission checks that run before every operation
(60_exceptions.md R255, R263), and the accumulator and digest buffers. -/

namespace Sys2Proof.Machine

/-! ### Requests and responses -/

/-- The state with the given requests pending. -/
def withPending (s : State) (rs : List Request) : State := { s with pending := rs }

/-- The oldest request and the state without it. -/
def nextRequest (s : State) : Option (Request × State) :=
  match s.pending with
  | [] => none
  | r :: rest => some (r, withPending s rest)

/-- The state with a request placed before all that are pending. -/
def placeRequest (s : State) (r : Request) : State := withPending s (r :: s.pending)

/-- An operation returns a value to its caller. -/
def respond (s : State) (r : Response) : State := { s with responses := s.responses ++ [r] }

/-! ### Fatal errors, warnings and the alert -/

/-- `raise Fatal(code, info)` (60_exceptions.md R250): the writes made before it stand, the operation ends. There is
no return from it: Failed is never left (R265). -/
def raiseFatal (s : State) (code : FatalCode) (info : Nat) : State :=
  { s with fatal := some ⟨code, info⟩, phase := .failed }

/-- A step with no request pending: nothing happens, but a state that records a fatal error is a fault and no place for a
run to rest (60_exceptions.md R250; assumption log 2, 6). -/
def idleStep (s : State) : StepResult :=
  match s.fatal with
  | none => .next s
  | some record => .fault (.fatalError record)

/-- `warn(code, info)` (60_exceptions.md R259). -/
def warn (s : State) (code : WarningCode) (info : Nat) : State :=
  { s with warnings := s.warnings ++ [⟨code, info⟩] }

/-- `emit Alert` (60_exceptions.md R260). -/
def emitAlert (s : State) : State := { s with alertEvents := s.alertEvents + 1 }

/-! ### Admission -/

/-- Bus admission: Idle and Loaded only (44_register_interface.md R205). -/
def admitBus (s : State) (k : State → StepResult) : StepResult :=
  match s.phase with
  | .idle => k s
  | .loaded => k s
  | .loading => .refused .busDuringLoad
  | .failed => .refused .afterFault

/-- Admission of SETKEY and SETNONCE: Idle, and not set before (43_descrambling_pipeline.md R181, R182). -/
def admitConfig (s : State) (already : Bool) (k : State → StepResult) : StepResult :=
  match s.phase with
  | .idle => if already then .refused .configState else k s
  | .loading => .refused .configState
  | .loaded => .refused .configState
  | .failed => .refused .afterFault

/-- Admission of LOAD.BEGIN: Idle, key and nonce set (43_descrambling_pipeline.md R186). -/
def admitBegin (s : State) (k : State → StepResult) : StepResult :=
  match s.phase with
  | .idle => if s.keySet && s.nonceSet then k s else .refused .unconfigured
  | .loading => .refused .loadState
  | .loaded => .refused .loadState
  | .failed => .refused .afterFault

/-- Admission of LOAD.WORD and LOAD.END: Loading (43_descrambling_pipeline.md R187, R196). -/
def admitLoading (s : State) (k : State → StepResult) : StepResult :=
  match s.phase with
  | .idle => .refused .loadState
  | .loading => k s
  | .loaded => .refused .loadState
  | .failed => .refused .afterFault

/-- Admission of RESET: Idle and Loaded (70_reset_and_hazards.md R281). -/
def admitReset (s : State) (k : State → StepResult) : StepResult :=
  match s.phase with
  | .idle => k s
  | .loading => .refused .loadState
  | .loaded => k s
  | .failed => .refused .afterFault

/-- Admission of a primitive call: every phase but Failed, after which every operation is refused
(60_exceptions.md R250; assumption log 14). -/
def admitPrim (s : State) (k : State → StepResult) : StepResult :=
  match s.phase with
  | .idle => k s
  | .loading => k s
  | .loaded => k s
  | .failed => .refused .afterFault

/-- A request that is no operation of the table. A bus access is admitted before its width is looked at
(44_register_interface.md R206); an unknown id names no operation in any phase (30_encoding.md R85). -/
def refuseUndecoded (e : DecodeError) (s : State) : StepResult :=
  match e with
  | .narrowAccess =>
    admitBus s fun s =>
      match s.cfg.busNarrow with
      | .refuse => .refused .narrowAccess
  | .unknownOperation => .refused .unknownOperation

/-! ### The backing store -/

/-- The byte at an address, if one has been written. -/
def Memory.read : Memory → Nat → Option Byte
  | [], _ => none
  | (k, v) :: m, a => if a = k then some v else Memory.read m a

/-- Write one byte, keeping the addresses strictly rising. -/
def Memory.write : Memory → Nat → Byte → Memory
  | [], a, b => [(a, b)]
  | (k, v) :: m, a, b =>
    if a < k then (a, b) :: (k, v) :: m
    else if a = k then (a, b) :: m
    else (k, v) :: Memory.write m a b

/-- Write consecutive bytes from an address on. -/
def Memory.writeBytes : Memory → Nat → List Byte → Memory
  | m, _, [] => m
  | m, a, b :: bs => Memory.writeBytes (Memory.write m a b) (a + 1) bs

/-- The canonical form: addresses strictly rising. An unlisted address holds no value, so no entry can equal one. -/
abbrev Memory.wf (m : Memory) : Prop := m.Pairwise fun p q => p.1 < q.1

/-- The four bytes `MemWrite(addr, 4, v)` stores, under STORE_BYTE_ORDER (20_memory.md R52). -/
def storeBytes (c : Config) (v : Word) : List Byte := bytesOf c.storeByteOrder 4 v.toNat

/-- The state with the given backing store. -/
def withStore (s : State) (m : Memory) : State := { s with store := m }

/-- `MemWrite(addr, 4, v)` (20_memory.md R52) into the store's addresses `0 .. ROM_BYTES − 1` (R51). -/
def memWrite (s : State) (addr : Nat) (v : Word) : StepResult :=
  if addr + 4 ≤ s.cfg.romBytes then
    .next (withStore s (s.store.writeBytes addr (storeBytes s.cfg v)))
  else .fault (.storeOutOfRange addr)

/-! ### Key, nonce and buffers -/

/-- SETKEY's writes (43_descrambling_pipeline.md R181). -/
def setKeyRegs (s : State) (k0 k1 : DWord) : State := { s with k0 := k0, k1 := k1, keySet := true }

/-- SETNONCE's writes (43_descrambling_pipeline.md R182). -/
def setNonceRegs (s : State) (nonce addrKey dataNonce : DWord) : State :=
  { s with nonce := nonce, addrKey := addrKey, dataNonce := dataNonce, nonceSet := true }

/-- LOAD.BEGIN's writes (43_descrambling_pipeline.md R186). -/
def beginLoad (s : State) : State :=
  { s with
    acc := List.replicate (payloadWords s.cfg) 0
    expected := Vector.replicate 8 0
    phase := .loading }

/-- The index is in the digest region (43_descrambling_pipeline.md R189). -/
def reserved (c : Config) (idx : Nat) : Bool := decide (romWords c - digestWords ≤ idx)

/-- LOAD.WORD steps 3 and 4 (43_descrambling_pipeline.md R189): the low 32 bits of the payload into the expected
digest, or the raw payload into the accumulator. -/
def recordPayload (s : State) (idx : Nat) (spay : DWord) : State :=
  if reserved s.cfg idx then
    { s with expected := s.expected.setIfInBounds (idx - (romWords s.cfg - digestWords)) (spay.extractLsb' 0 32) }
  else { s with acc := s.acc.set idx spay }

/-- LOAD.END's writes (43_descrambling_pipeline.md R196). -/
def endLoad (s : State) (observed : Vector Word 8) (mismatch : Bool) : State :=
  { s with observed := observed, integrityError := mismatch, phase := .loaded }

/-! ### Status flags and alert latch -/

/-- Both status flags and the alert latch, as WR.ALERT_TEST sets them (44_register_interface.md R211). -/
def setAlertFlags (s : State) : State :=
  { s with checkerError := true, integrityError := true, alertLatched := true }

/-- RESET's writes (70_reset_and_hazards.md R281). -/
def resetFlags (s : State) (mismatch : Bool) : State :=
  { s with integrityError := mismatch, checkerError := false, alertLatched := false }

end Sys2Proof.Machine
end

