-- ==== Sys2Proof/Machine/Ecc.lean ====
section
/-! DEFINITION. ECC, the Hsiao (39,32) SEC-DED code (42_hsiao_secded.md). -/

namespace Sys2Proof.Machine

/-- Check bit `i` before the inversion: the parity of `word & HSIAO_MASKS[i]` (R161). -/
def checkBit (t : Tables) (word : Word) (i : Nat) : Bool := parity (word &&& t.hsiaoMasks.toList.getD i 0)

/-- `ECC.ADD word` (R163). -/
def eccAdd (t : Tables) (word : Word) : Codeword :=
  (ofBits 39 fun i => if i < 32 then word.getLsbD i else checkBit t word (i - 32)) ^^^ t.hsiaoInv

/-- `ECC.CHK value` (R164). -/
def eccChk (t : Tables) (value : Codeword) : Bool := eccAdd t (value.extractLsb' 0 32) == value

/-- `ECC.ADD` as a primitive call (R163). -/
def execEccAdd (word : Word) (s : State) : StepResult :=
  admitPrim s fun s => .next (respond s (.codeword (eccAdd s.cfg.tables word)))

/-- `ECC.CHK` as a primitive call (R164). -/
def execEccChk (value : Codeword) (s : State) : StepResult :=
  admitPrim s fun s => .next (respond s (.check (eccChk s.cfg.tables value)))

end Sys2Proof.Machine
end

