-- ==== Sys2Proof/Machine/Flags.lean ====
section
/-! DEFINITION. The status flags' computations: the digest comparison (43_descrambling_pipeline.md R202) and the word
FatalAlertCause reads (44_register_interface.md R212). -/

namespace Sys2Proof.Machine

/-- The byte view of a digest buffer under DIGEST_BYTE_ORDER (10_state.md R27, R28). -/
def digestBytes (c : Config) (v : Vector Word 8) : List Byte :=
  v.toList.flatMap fun w => bytesOf c.digestByteOrder 4 w.toNat

/-- The digest buffer whose byte view is given (43_descrambling_pipeline.md R201). -/
def digestOfBytes (c : Config) (bs : List Byte) : Vector Word 8 :=
  Vector.ofFn fun j => BitVec.ofNat 32 (ofBytes c.digestByteOrder ((bs.drop (4 * j.val)).take 4))

/-- `ObsBytes ≠ ExpBytes` (43_descrambling_pipeline.md R202). -/
def digestsDiffer (s : State) : Bool := digestBytes s.cfg s.observed != digestBytes s.cfg s.expected

/-- `zext_32({ S.integrityError, S.checkerError })` (44_register_interface.md R212). -/
def fatalAlertCause (s : State) : Word :=
  (BitVec.ofBool s.integrityError ++ BitVec.ofBool s.checkerError).setWidth 32

end Sys2Proof.Machine
end

