-- ==== Sys2Proof/Machine/Hash.lean ====
section
/-! DEFINITION. The hash function HASH_FN (43_descrambling_pipeline.md R200, decision D7): cSHAKE with an empty function
name and the customisation string "ROM_CTRL". The spec gives the framing; the permutation Keccak-f[1600] inside it is
an external primitive the spec does not transcribe (93_implementation_defined.md G13). PRESUMED (assumption log 9): it is
the one of FIPS 202, checked against the values of 95_test_vectors.md V19. -/

namespace Sys2Proof.Machine

/-! ### Keccak-f[1600]: 25 lanes of 64 bits, lane `x + 5y` at index `x + 5y` -/

/-- Lane `i`. -/
def lane (a : List DWord) (i : Nat) : DWord := a.getD i 0

/-- Left rotation of a lane. -/
def rotLane (x : DWord) (n : Nat) : DWord := (x <<< n) ||| (x >>> (64 - n))

/-- The round constants of ι. -/
def keccakConstants : List DWord :=
  [0x0000000000000001, 0x0000000000008082, 0x800000000000808A, 0x8000000080008000,
   0x000000000000808B, 0x0000000080000001, 0x8000000080008081, 0x8000000000008009] ++
  [0x000000000000008A, 0x0000000000000088, 0x0000000080008009, 0x000000008000000A,
   0x000000008000808B, 0x800000000000008B, 0x8000000000008089, 0x8000000000008003] ++
  [0x8000000000008002, 0x8000000000000080, 0x000000000000800A, 0x800000008000000A,
   0x8000000080008081, 0x8000000000008080, 0x0000000080000001, 0x8000000080008008]

/-- The rotation offsets of ρ, by lane. -/
def keccakOffsets : List Nat :=
  [0, 1, 62, 28, 27, 36, 44, 6, 55, 20, 3, 10, 43, 25, 39, 41, 45, 15, 21, 8, 18, 2, 61, 56, 14]

/-- The column parities of θ. -/
def keccakColumns (a : List DWord) : List DWord :=
  (List.range 5).map fun x =>
    lane a x ^^^ lane a (x + 5) ^^^ lane a (x + 10) ^^^ lane a (x + 15) ^^^ lane a (x + 20)

/-- θ. -/
def keccakTheta (a : List DWord) : List DWord :=
  let c := keccakColumns a
  let d := (List.range 5).map fun x => lane c ((x + 4) % 5) ^^^ rotLane (lane c ((x + 1) % 5)) 1
  (List.range 25).map fun i => lane a i ^^^ lane d (i % 5)

/-- ρ then π: lane `(x, y)` goes to `(y, 2x + 3y)`. -/
def keccakRhoPi (a : List DWord) : List DWord :=
  (List.range 25).map fun i =>
    let j := (i % 5 + 3 * (i / 5)) % 5 + 5 * (i % 5)
    rotLane (lane a j) (keccakOffsets.getD j 0)

/-- χ. -/
def keccakChi (b : List DWord) : List DWord :=
  (List.range 25).map fun i =>
    let y := 5 * (i / 5)
    lane b i ^^^ (~~~ lane b (y + (i + 1) % 5) &&& lane b (y + (i + 2) % 5))

/-- One round: θ, ρ, π, χ, ι. -/
def keccakRound (a : List DWord) (rc : DWord) : List DWord :=
  let b := keccakChi (keccakRhoPi (keccakTheta a))
  b.set 0 (lane b 0 ^^^ rc)

/-- The permutation Keccak-f[1600]. -/
def keccakF (a : List DWord) : List DWord := keccakConstants.foldl keccakRound a

/-! ### The sponge and the cSHAKE framing -/

/-- Exclusive-or a block of `rate` bytes into the state. -/
def absorbBlock (rate : Nat) (a : List DWord) (block : List Byte) : List DWord :=
  (List.range 25).map fun i =>
    if i < rate / 8 then lane a i ^^^ BitVec.ofNat 64 (ofLeBytes ((block.drop (8 * i)).take 8)) else lane a i

/-- Absorb the first `n` blocks of `rate` bytes. -/
def absorb (rate : Nat) : Nat → List DWord → List Byte → List DWord
  | 0, a, _ => a
  | n + 1, a, bytes => absorb rate n (keccakF (absorbBlock rate a bytes)) (bytes.drop rate)

/-- `bytepad( encode_string("") ‖ encode_string("ROM_CTRL"), rate )` (R200). -/
def hashPrefix (rate : Nat) : List Byte :=
  let x := [0x01, BitVec.ofNat 8 rate, 0x01, 0x00, 0x01, BitVec.ofNat 8 (8 * hashCustom.length)] ++ hashCustom
  x ++ List.replicate (rate - x.length) 0

/-- The message with the cSHAKE suffix bits and the padding: 0x04 first, 0x80 ORed into the last byte of the last
block (R200). -/
def hashPad (rate : Nat) (bytes : List Byte) : List Byte :=
  let z := rate - bytes.length % rate
  if z = 1 then bytes ++ [0x84] else bytes ++ [0x04] ++ List.replicate (z - 2) 0 ++ [0x80]

/-- cSHAKE with the given rate, function name "", customisation "ROM_CTRL" and 256 output bits (R200). -/
def cshake (rate : Nat) (bytes : List Byte) : List Byte :=
  let padded := hashPad rate (hashPrefix rate ++ bytes)
  let a := absorb rate (padded.length / rate) (List.replicate 25 0) padded
  (List.range 4).flatMap fun i => leBytes 8 (lane a i).toNat

/-- `Hash(X)`, selected by HASH_FN (R200): the rate is 136 bytes for cSHAKE256 and 168 for cSHAKE128. -/
def hashOf (c : Config) (bytes : List Byte) : List Byte :=
  match c.hashFn with
  | .cshake256 => cshake 136 bytes
  | .cshake128 => cshake 168 bytes
  | .external => (Config.externalHash bytes).toList

end Sys2Proof.Machine
end

