-- ==== Sys2Proof/Machine/Lbc.lean ====
section
/-! DEFINITION. LBC, the lightweight block cipher (40_lightweight_block_cipher.md): its layers, its rounds and its two
operations. A state of active width `w` is a `BitVec w`. -/

namespace Sys2Proof.Machine

/-- The reversal layer `Flip(x, w)` (R104). -/
def flipLayer {w : Nat} (x : BitVec w) : BitVec w := ofBits w fun i => x.getLsbD (w - 1 - i)

/-- The interleave layer `Perm(x, w)` (R105): even bits to the low half, odd bits to the high half. -/
def permLayer {w : Nat} (x : BitVec w) : BitVec w :=
  ofBits w fun i =>
    let h := w / 2
    if i < h then x.getLsbD (2 * i)
    else if i < 2 * h then x.getLsbD (2 * (i - h) + 1)
    else x.getLsbD i

/-- The inverse interleave layer `PermInv(x, w)` (R105). -/
def permInvLayer {w : Nat} (x : BitVec w) : BitVec w :=
  ofBits w fun i =>
    let h := w / 2
    if i < 2 * h then (if i % 2 = 0 then x.getLsbD (i / 2) else x.getLsbD (i / 2 + h))
    else x.getLsbD i

/-- `F` of R106: `Flip` if LBC_FLIP and the identity otherwise. -/
def lbcF (c : Config) {w : Nat} (x : BitVec w) : BitVec w := if c.lbcFlip then flipLayer x else x

/-- One round in the forward direction (R106). -/
def encRound (c : Config) {w : Nat} (key s : BitVec w) : BitVec w :=
  permLayer (lbcF c (subLayer (lookup c.tables.presentSbox) (s ^^^ key)))

/-- One round in the inverse direction (R106). -/
def decRound (c : Config) {w : Nat} (key s : BitVec w) : BitVec w :=
  subLayer (lookupInv c.tables.presentSbox) (lbcF c (permInvLayer (s ^^^ key)))

/-- `rounds` forward rounds. -/
def encRounds (c : Config) {w : Nat} (key : BitVec w) : Nat → BitVec w → BitVec w
  | 0, s => s
  | n + 1, s => encRounds c key n (encRound c key s)

/-- `rounds` inverse rounds. -/
def decRounds (c : Config) {w : Nat} (key : BitVec w) : Nat → BitVec w → BitVec w
  | 0, s => s
  | n + 1, s => decRounds c key n (decRound c key s)

/-- What a call of LBC gives: a `width`-bit value in a 64-bit carrier, `Err(LbcDomain)`, or the refusal LbcKeyWidth
(R107, R108). -/
inductive LbcResult
  | value (v : DWord)
  | domain
  | keyWidth
  deriving DecidableEq, Repr

/-- `LBC.ENC data, key, width, rounds` (R107). -/
def lbcEnc (c : Config) (data key width rounds : Nat) : LbcResult :=
  if 64 < width then .domain
  else if 2 ^ width ≤ data then .domain
  else if 2 ^ width ≤ key then .keyWidth
  else
    let k := BitVec.ofNat width key
    .value ((encRounds c k rounds (BitVec.ofNat width data) ^^^ k).setWidth 64)

/-- `LBC.DEC data, key, width, rounds` (R108). -/
def lbcDec (c : Config) (data key width rounds : Nat) : LbcResult :=
  if 64 < width then .domain
  else if 2 ^ width ≤ data then .domain
  else if 2 ^ width ≤ key then .keyWidth
  else
    let k := BitVec.ofNat width key
    .value ((decRounds c k rounds (BitVec.ofNat width data) ^^^ k).setWidth 64)

/-- How a primitive call of LBC ends: the value or `Err(LbcDomain)` is returned to the caller, a key that is too wide is
refused (R107, R108). -/
def answerLbc (s : State) : LbcResult → StepResult
  | .value v => .next (respond s (.value v))
  | .domain => .next (respond s .lbcDomain)
  | .keyWidth => .refused .lbcKeyWidth

/-- `LBC.ENC` as a primitive call (R107). -/
def execLbcEnc (data key width rounds : Nat) (s : State) : StepResult :=
  admitPrim s fun s => answerLbc s (lbcEnc s.cfg data key width rounds)

/-- `LBC.DEC` as a primitive call (R108). -/
def execLbcDec (data key width rounds : Nat) (s : State) : StepResult :=
  admitPrim s fun s => answerLbc s (lbcDec s.cfg data key width rounds)

end Sys2Proof.Machine
end

