-- ==== Sys2Proof/Machine/Operands.lean ====
section
/-! DEFINITION. How operand bytes become values: the key (30_encoding.md R81), the nonce and its split (R82,
43_descrambling_pipeline.md R183), the keystream input (30_encoding.md R83). -/

namespace Sys2Proof.Machine

/-- A 64-bit word of key or nonce bytes under KEY_BYTE_ORDER (decision D5). -/
def keyWord (c : Config) (bs : List Byte) : DWord := BitVec.ofNat 64 (ofBytes c.keyByteOrder bs)

/-- `k1`, the first decoded word of the key bytes (30_encoding.md R81). -/
def keyK1 (c : Config) (kbytes : List Byte) : DWord := keyWord c (kbytes.take 8)

/-- `k0`, the second decoded word of the key bytes (30_encoding.md R81). -/
def keyK0 (c : Config) (kbytes : List Byte) : DWord := keyWord c (kbytes.drop 8)

/-- The address key of a nonce: its top `W` bits (43_descrambling_pipeline.md R183). For `W > 64`, to which the spec
gives no split, see assumption log 12. -/
def splitAddrKey (c : Config) (nonce : DWord) : DWord := nonce >>> (64 - indexWidth c)

/-- The data nonce of a nonce: the other bits, shifted left by `W` (43_descrambling_pipeline.md R183). -/
def splitDataNonce (c : Config) (nonce : DWord) : DWord := nonce <<< indexWidth c

/-- The keystream input `idx | S.dataNonce` (30_encoding.md R83). -/
def keystreamInput (s : State) (idx : Nat) : DWord := BitVec.ofNat 64 idx ||| s.dataNonce

end Sys2Proof.Machine
end

