-- ==== Sys2Proof/Machine/Rbc.lean ====
section
/-! DEFINITION. RBC, the reflection block cipher (41_reflection_cipher.md): its layers, its schedule and its
operation. -/

namespace Sys2Proof.Machine

/-- `Sub(x, 64, PRINCE_SBOX)` (R131). -/
def rbcSub (t : Tables) (x : DWord) : DWord := subLayer (lookup t.princeSbox) x

/-- `Sub(x, 64, PRINCE_SBOX_INV)` (R132). -/
def rbcSubInv (t : Tables) (x : DWord) : DWord := subLayer (lookupInv t.princeSbox) x

/-- `red16(v)`: the exclusive-or of the four nibbles (R134). -/
def red16 (v : BitVec 16) : Nibble := nib v 0 ^^^ nib v 1 ^^^ nib v 2 ^^^ nib v 3

/-- `MPRIME(x)`: output nibble `n` of lane `L` is `red16(lane_L & MPRIME_MASKS[L][n])` (R134). -/
def mprime (t : Tables) (x : DWord) : DWord :=
  ofNibbles fun j =>
    let mask := ((t.mprimeMasks.toList.map Vector.toList).getD (j / 4) []).getD (j % 4) 0
    red16 (x.extractLsb' (16 * (j / 4)) 16 &&& mask)

/-- `SR_TABLE[j]` (R135). -/
def srIndex (t : Tables) (j : Nat) : Nat := (t.srTable.toList.getD j 0).val

/-- `SR_INV_TABLE[j]`, the position of `j` in SR_TABLE (R135; assumption log 15). -/
def srInvIndex (t : Tables) (j : Nat) : Nat := t.srTable.toList.findIdx (fun i => i.val == j)

/-- `SR(x)` (R135). -/
def shiftRows (t : Tables) (x : DWord) : DWord := ofNibbles fun j => nib x (srIndex t j)

/-- `SR_INV(x)` (R135). -/
def shiftRowsInv (t : Tables) (x : DWord) : DWord := ofNibbles fun j => nib x (srInvIndex t j)

/-- `PRINCE_RC[i]` (R133). -/
def roundConstant (t : Tables) (i : Nat) : DWord := t.princeRc.toList.getD i 0

/-- The reflected key `k0'` (R136). -/
def reflectedKey (k0 : DWord) : DWord := rotr64 k0 1 ^^^ (k0 >>> 63)

/-- The key of forward round `k`: `k0` if `k` is odd, `k1` if it is even (R137). -/
def forwardKey (k0 k1 : DWord) (k : Nat) : DWord := if k % 2 = 1 then k0 else k1

/-- Forward round `k` (R139). -/
def rbcForwardRound (t : Tables) (k0 k1 : DWord) (k : Nat) (s : DWord) : DWord :=
  shiftRows t (mprime t (rbcSub t s)) ^^^ roundConstant t k ^^^ forwardKey k0 k1 k

/-- The middle step (R139). -/
def rbcMiddle (t : Tables) (s : DWord) : DWord := rbcSubInv t (mprime t (rbcSub t s))

/-- Backward round `k` of `h`: the key of forward round `h + 1 − k` (R137), the constant `10 − h + k` (R138). -/
def rbcBackwardRound (t : Tables) (k0 k1 : DWord) (h k : Nat) (s : DWord) : DWord :=
  rbcSubInv t (mprime t (shiftRowsInv t (s ^^^ forwardKey k0 k1 (h + 1 - k) ^^^ roundConstant t (10 - h + k))))

/-- Forward rounds 1 to `n` (R139). -/
def rbcForward (t : Tables) (k0 k1 : DWord) : Nat → DWord → DWord
  | 0, s => s
  | n + 1, s => rbcForwardRound t k0 k1 (n + 1) (rbcForward t k0 k1 n s)

/-- Backward rounds 1 to `n` of `h` (R139). -/
def rbcBackward (t : Tables) (k0 k1 : DWord) (h : Nat) : Nat → DWord → DWord
  | 0, s => s
  | n + 1, s => rbcBackwardRound t k0 k1 h (n + 1) (rbcBackward t k0 k1 h n s)

/-- `RBC.ENC data, k1, k0, rounds` for an admitted number of rounds (R139). -/
def rbcEnc (t : Tables) (data k1 k0 : DWord) (rounds : Nat) : DWord :=
  let h := rounds / 2
  let s := data ^^^ k0 ^^^ k1 ^^^ roundConstant t 0
  rbcBackward t k0 k1 h h (rbcMiddle t (rbcForward t k0 k1 h s)) ^^^ k1 ^^^ roundConstant t 11 ^^^ reflectedKey k0

/-- `RBC.ENC` as a primitive call: only width 64 and even rounds up to 10 are admitted (R130, R139). -/
def execRbcEnc (data k1 k0 : DWord) (width rounds : Nat) (s : State) : StepResult :=
  admitPrim s fun s =>
    if width ≠ 64 then .refused .rbcWidth
    else if rounds % 2 = 1 then .refused .rbcRounds
    else if 10 < rounds then .refused .rbcRounds
    else .next (respond s (.value (rbcEnc s.cfg.tables data k1 k0 rounds)))

end Sys2Proof.Machine
end

