-- ==== Sys2Proof/Machine/Pipe.lean ====
section
/-! DEFINITION. PIPE, the descrambling pipeline (43_descrambling_pipeline.md): configuration, the load, the digest; and
the pseudo-operation LOAD (30_encoding.md R88). -/

namespace Sys2Proof.Machine

/-! ### Configuration -/

/-- `SETKEY kbytes` (R181). -/
def execSetKey (kbytes : List Byte) (s : State) : StepResult :=
  admitConfig s s.keySet fun s =>
    if kbytes.length ≠ 16 then .next (raiseFatal s .keyFormat kbytes.length)
    else .next (setKeyRegs s (keyK0 s.cfg kbytes) (keyK1 s.cfg kbytes))

/-- `SETNONCE nbytes` (R182). -/
def execSetNonce (nbytes : List Byte) (s : State) : StepResult :=
  admitConfig s s.nonceSet fun s =>
    if nbytes.length ≠ 8 then .next (raiseFatal s .nonceFormat nbytes.length)
    else
      let nonce := keyWord s.cfg nbytes
      .next (setNonceRegs s nonce (splitAddrKey s.cfg nonce) (splitDataNonce s.cfg nonce))

/-! ### The load -/

/-- `LOAD.BEGIN` (R186). -/
def execLoadBegin (s : State) : StepResult := admitBegin s fun s => .next (beginLoad s)

/-- What LOAD.WORD steps 1 and 2 give: a logical index below `N`, a fatal error, or the refusal of an address key
that is too wide for the cipher (which no run reaches; assumption log 17). -/
inductive IndexResult
  | index (idx : Nat)
  | fatal (code : FatalCode) (info : Nat)
  | keyWidth
  deriving DecidableEq, Repr

/-- LOAD.WORD steps 1 and 2 (R188). -/
def logicalIndex (s : State) (sidx : Word) : IndexResult :=
  match lbcDec s.cfg sidx.toNat s.addrKey.toNat (indexWidth s.cfg) addrRounds with
  | .domain => .fatal .indexWidth sidx.toNat
  | .keyWidth => .keyWidth
  | .value r => if romWords s.cfg ≤ r.toNat then .fatal .indexRange r.toNat else .index r.toNat

/-- Step 6: the keystream of a logical index (R190). -/
def keystream (s : State) (idx : Nat) : DWord :=
  rbcEnc s.cfg.tables (keystreamInput s idx) s.k1 s.k0 rbcRounds

/-- Steps 5 to 7: the decoded codeword of a payload at an index, none where step 5 gives `Err(LbcDomain)` (R190). -/
def decodePayload (s : State) (idx : Nat) (spay : DWord) : Option Codeword :=
  match lbcDec s.cfg spay.toNat 0 codewordWidth dataRounds with
  | .value r1 => some ((r1 ^^^ keystream s idx).setWidth 39)
  | .domain => none
  | .keyWidth => none

/-- Step 8: the recoverable warning of a code mismatch outside the digest region (R190). -/
def checkDecoded (s : State) (idx : Nat) (plain : Codeword) : State :=
  if !reserved s.cfg idx && !eccChk s.cfg.tables plain then warn s .ecc idx else s

/-- LOAD.WORD steps 3 to 9 for a logical index (R189, R190). -/
def loadAt (s : State) (idx : Nat) (spay : DWord) : StepResult :=
  let s := recordPayload s idx spay
  match decodePayload s idx spay with
  | none => .next (raiseFatal s .payloadWidth spay.toNat)
  | some plain => memWrite (checkDecoded s idx plain) (idx * 4) (plain.extractLsb' 0 32)

/-- `LOAD.WORD sidx, spay` (R187 to R190). -/
def execLoadWord (sidx : Word) (spay : DWord) (s : State) : StepResult :=
  admitLoading s fun s =>
    match logicalIndex s sidx with
    | .fatal code info => .next (raiseFatal s code info)
    | .keyWidth => .refused .lbcKeyWidth
    | .index idx => loadAt s idx spay

/-! ### Finishing the load -/

/-- `slotValue(i)` of a slot that holds `v`, under HASH_SLOT_FORM (R198). The decoded form of a slot of 2^39 or more
is a free value (assumption log 11). -/
def slotValue (s : State) (i : Nat) (v : DWord) : Nat :=
  match s.cfg.hashSlotForm with
  | .raw39 => v.toNat
  | .rawLow32 => (v.extractLsb' 0 32).toNat
  | .decoded32 =>
    match decodePayload s i v with
    | some plain => (plain.extractLsb' 0 32).toNat
    | none => (Config.undecodableSlot v).toNat

/-- `HashInput`: the slots in increasing index order, 8 little-endian bytes each (R199, 30_encoding.md R84). -/
def hashInput (s : State) : List Byte :=
  s.acc.zipIdx.flatMap fun e => leBytes 8 (slotValue s e.2 e.1)

/-- LOAD.END's pseudocode (R196): the observed digest, then the comparison, then the phase. -/
def finishLoad (s : State) : State :=
  let observed := digestOfBytes s.cfg (hashOf s.cfg (hashInput s))
  endLoad s observed (digestsDiffer { s with observed := observed })

/-- `LOAD.END` (R196). -/
def execLoadEnd (s : State) : StepResult := admitLoading s fun s => .next (finishLoad s)

/-! ### The pseudo-operation LOAD -/

/-- The LOAD.WORDs of an image in stream order, up to the first that raises a fatal error (30_encoding.md R88). -/
def loadWords : List (Word × DWord) → State → StepResult
  | [], s => .next s
  | e :: image, s =>
    match execLoadWord e.1 e.2 s with
    | .next t => if t.phase = .failed then .next t else loadWords image t
    | .fault f => .fault f
    | .refused r => .refused r

/-- `LOAD <image>`: LOAD.BEGIN, the LOAD.WORDs, and LOAD.END unless a fatal error ended the expansion
(30_encoding.md R88). -/
def loadImage (image : List (Word × DWord)) (s : State) : StepResult :=
  match execLoadBegin s with
  | .next t =>
    match loadWords image t with
    | .next u => if u.phase = .failed then .next u else execLoadEnd u
    | .fault f => .fault f
    | .refused r => .refused r
  | .fault f => .fault f
  | .refused r => .refused r

end Sys2Proof.Machine
end

