-- ==== Sys2Proof/Machine/Regs.lean ====
section
/-! DEFINITION. REGS, the controller register file (44_register_interface.md): one meaning per BUS row. -/

namespace Sys2Proof.Machine

/-- An admitted read that returns `v` of the state and changes nothing (R205, R207). -/
def busRead (s : State) (v : State → Word) : StepResult := admitBus s fun s => .next (respond s (.rdata (v s)))

/-- An admitted write that is ignored: no state change, no fault, no warning (R205, R208). -/
def busIgnore (s : State) : StepResult := admitBus s fun s => .next s

/-! ### AlertTest and FatalAlertCause -/

/-- `RD.ALERT_TEST` (R210). -/
def execRdAlertTest (s : State) : StepResult := busRead s fun _ => 0

/-- The effect of WR.ALERT_TEST with bit 0 set (R211): the flags and the latch, and one alert event, which
ALERT_RETRIGGER = false withholds while the latch is set. -/
def alertTest (s : State) : State :=
  if s.cfg.alertRetrigger || !s.alertLatched then setAlertFlags (emitAlert s) else setAlertFlags s

/-- `WR.ALERT_TEST` (R211): only bit 0 of `wdata` counts. -/
def execWrAlertTest (wdata : Word) (s : State) : StepResult :=
  admitBus s fun s => .next (if wdata.getLsbD 0 then alertTest s else s)

/-- `RD.FATAL_ALERT_CAUSE` (R212). -/
def execRdFatalAlertCause (s : State) : StepResult := busRead s fatalAlertCause

/-- `WR.FATAL_ALERT_CAUSE` (R213). -/
def execWrFatalAlertCause (_wdata : Word) (s : State) : StepResult := busIgnore s

/-! ### Digest0 to Digest7 -/

/-- `RD.DIGEST0` (R214). -/
def execRdDigest0 (s : State) : StepResult := busRead s fun s => s.observed[0]

/-- `RD.DIGEST1` (R215). -/
def execRdDigest1 (s : State) : StepResult := busRead s fun s => s.observed[1]

/-- `RD.DIGEST2` (R216). -/
def execRdDigest2 (s : State) : StepResult := busRead s fun s => s.observed[2]

/-- `RD.DIGEST3` (R217). -/
def execRdDigest3 (s : State) : StepResult := busRead s fun s => s.observed[3]

/-- `RD.DIGEST4` (R218). -/
def execRdDigest4 (s : State) : StepResult := busRead s fun s => s.observed[4]

/-- `RD.DIGEST5` (R219). -/
def execRdDigest5 (s : State) : StepResult := busRead s fun s => s.observed[5]

/-- `RD.DIGEST6` (R220). -/
def execRdDigest6 (s : State) : StepResult := busRead s fun s => s.observed[6]

/-- `RD.DIGEST7` (R221). -/
def execRdDigest7 (s : State) : StepResult := busRead s fun s => s.observed[7]

/-- `WR.DIGEST0` (R222). -/
def execWrDigest0 (_wdata : Word) (s : State) : StepResult := busIgnore s

/-- `WR.DIGEST1` (R223). -/
def execWrDigest1 (_wdata : Word) (s : State) : StepResult := busIgnore s

/-- `WR.DIGEST2` (R224). -/
def execWrDigest2 (_wdata : Word) (s : State) : StepResult := busIgnore s

/-- `WR.DIGEST3` (R225). -/
def execWrDigest3 (_wdata : Word) (s : State) : StepResult := busIgnore s

/-- `WR.DIGEST4` (R226). -/
def execWrDigest4 (_wdata : Word) (s : State) : StepResult := busIgnore s

/-- `WR.DIGEST5` (R227). -/
def execWrDigest5 (_wdata : Word) (s : State) : StepResult := busIgnore s

/-- `WR.DIGEST6` (R228). -/
def execWrDigest6 (_wdata : Word) (s : State) : StepResult := busIgnore s

/-- `WR.DIGEST7` (R229). -/
def execWrDigest7 (_wdata : Word) (s : State) : StepResult := busIgnore s

/-! ### ExpectedDigest0 to ExpectedDigest7 -/

/-- `RD.EXPECTED_DIGEST0` (R230). -/
def execRdExpectedDigest0 (s : State) : StepResult := busRead s fun s => s.expected[0]

/-- `RD.EXPECTED_DIGEST1` (R231). -/
def execRdExpectedDigest1 (s : State) : StepResult := busRead s fun s => s.expected[1]

/-- `RD.EXPECTED_DIGEST2` (R232). -/
def execRdExpectedDigest2 (s : State) : StepResult := busRead s fun s => s.expected[2]

/-- `RD.EXPECTED_DIGEST3` (R233). -/
def execRdExpectedDigest3 (s : State) : StepResult := busRead s fun s => s.expected[3]

/-- `RD.EXPECTED_DIGEST4` (R234). -/
def execRdExpectedDigest4 (s : State) : StepResult := busRead s fun s => s.expected[4]

/-- `RD.EXPECTED_DIGEST5` (R235). -/
def execRdExpectedDigest5 (s : State) : StepResult := busRead s fun s => s.expected[5]

/-- `RD.EXPECTED_DIGEST6` (R236). -/
def execRdExpectedDigest6 (s : State) : StepResult := busRead s fun s => s.expected[6]

/-- `RD.EXPECTED_DIGEST7` (R237). -/
def execRdExpectedDigest7 (s : State) : StepResult := busRead s fun s => s.expected[7]

/-- `WR.EXPECTED_DIGEST0` (R238). -/
def execWrExpectedDigest0 (_wdata : Word) (s : State) : StepResult := busIgnore s

/-- `WR.EXPECTED_DIGEST1` (R239). -/
def execWrExpectedDigest1 (_wdata : Word) (s : State) : StepResult := busIgnore s

/-- `WR.EXPECTED_DIGEST2` (R240). -/
def execWrExpectedDigest2 (_wdata : Word) (s : State) : StepResult := busIgnore s

/-- `WR.EXPECTED_DIGEST3` (R241). -/
def execWrExpectedDigest3 (_wdata : Word) (s : State) : StepResult := busIgnore s

/-- `WR.EXPECTED_DIGEST4` (R242). -/
def execWrExpectedDigest4 (_wdata : Word) (s : State) : StepResult := busIgnore s

/-- `WR.EXPECTED_DIGEST5` (R243). -/
def execWrExpectedDigest5 (_wdata : Word) (s : State) : StepResult := busIgnore s

/-- `WR.EXPECTED_DIGEST6` (R244). -/
def execWrExpectedDigest6 (_wdata : Word) (s : State) : StepResult := busIgnore s

/-- `WR.EXPECTED_DIGEST7` (R245). -/
def execWrExpectedDigest7 (_wdata : Word) (s : State) : StepResult := busIgnore s

/-! ### Unknown offsets -/

/-- `RD.UNKNOWN` (R246): reads 0, with a warning. -/
def execRdUnknown (offset : Word) (s : State) : StepResult :=
  admitBus s fun s => .next (respond (warn s .unknownOffset offset.toNat) (.rdata 0))

/-- `WR.UNKNOWN` (R247): ignored, with a warning. -/
def execWrUnknown (offset : Word) (_wdata : Word) (s : State) : StepResult :=
  admitBus s fun s => .next (warn s .unknownOffset offset.toNat)

end Sys2Proof.Machine
end

