-- ==== Sys2Proof/Machine/ResetOp.lean ====
section
/-! DEFINITION. The host operation RESET (70_reset_and_hazards.md). -/

namespace Sys2Proof.Machine

/-- `RESET` (R281): a fresh digest comparison; the checker flag and the alert latch are cleared; nothing else. -/
def execReset (s : State) : StepResult := admitReset s fun s => .next (resetFlags s (digestsDiffer s))

end Sys2Proof.Machine
end

