-- ==== Sys2Proof/Machine/Dispatch.lean ====
section
/-! DEFINITION. The dispatch: one arm per operation, each a direct call of its meaning (44_register_interface.md R206 step 3). -/

namespace Sys2Proof.Machine

def exec (i : Instr) (s : State) : Host.Outcome State Fault Refusal :=
  match i with
  | .rdAlertTest => Sys2Proof.Machine.execRdAlertTest s
  | .wrAlertTest wdata => Sys2Proof.Machine.execWrAlertTest wdata s
  | .rdFatalAlertCause => Sys2Proof.Machine.execRdFatalAlertCause s
  | .wrFatalAlertCause wdata => Sys2Proof.Machine.execWrFatalAlertCause wdata s
  | .rdDigest0 => Sys2Proof.Machine.execRdDigest0 s
  | .rdDigest1 => Sys2Proof.Machine.execRdDigest1 s
  | .rdDigest2 => Sys2Proof.Machine.execRdDigest2 s
  | .rdDigest3 => Sys2Proof.Machine.execRdDigest3 s
  | .rdDigest4 => Sys2Proof.Machine.execRdDigest4 s
  | .rdDigest5 => Sys2Proof.Machine.execRdDigest5 s
  | .rdDigest6 => Sys2Proof.Machine.execRdDigest6 s
  | .rdDigest7 => Sys2Proof.Machine.execRdDigest7 s
  | .wrDigest0 wdata => Sys2Proof.Machine.execWrDigest0 wdata s
  | .wrDigest1 wdata => Sys2Proof.Machine.execWrDigest1 wdata s
  | .wrDigest2 wdata => Sys2Proof.Machine.execWrDigest2 wdata s
  | .wrDigest3 wdata => Sys2Proof.Machine.execWrDigest3 wdata s
  | .wrDigest4 wdata => Sys2Proof.Machine.execWrDigest4 wdata s
  | .wrDigest5 wdata => Sys2Proof.Machine.execWrDigest5 wdata s
  | .wrDigest6 wdata => Sys2Proof.Machine.execWrDigest6 wdata s
  | .wrDigest7 wdata => Sys2Proof.Machine.execWrDigest7 wdata s
  | .rdExpectedDigest0 => Sys2Proof.Machine.execRdExpectedDigest0 s
  | .rdExpectedDigest1 => Sys2Proof.Machine.execRdExpectedDigest1 s
  | .rdExpectedDigest2 => Sys2Proof.Machine.execRdExpectedDigest2 s
  | .rdExpectedDigest3 => Sys2Proof.Machine.execRdExpectedDigest3 s
  | .rdExpectedDigest4 => Sys2Proof.Machine.execRdExpectedDigest4 s
  | .rdExpectedDigest5 => Sys2Proof.Machine.execRdExpectedDigest5 s
  | .rdExpectedDigest6 => Sys2Proof.Machine.execRdExpectedDigest6 s
  | .rdExpectedDigest7 => Sys2Proof.Machine.execRdExpectedDigest7 s
  | .wrExpectedDigest0 wdata => Sys2Proof.Machine.execWrExpectedDigest0 wdata s
  | .wrExpectedDigest1 wdata => Sys2Proof.Machine.execWrExpectedDigest1 wdata s
  | .wrExpectedDigest2 wdata => Sys2Proof.Machine.execWrExpectedDigest2 wdata s
  | .wrExpectedDigest3 wdata => Sys2Proof.Machine.execWrExpectedDigest3 wdata s
  | .wrExpectedDigest4 wdata => Sys2Proof.Machine.execWrExpectedDigest4 wdata s
  | .wrExpectedDigest5 wdata => Sys2Proof.Machine.execWrExpectedDigest5 wdata s
  | .wrExpectedDigest6 wdata => Sys2Proof.Machine.execWrExpectedDigest6 wdata s
  | .wrExpectedDigest7 wdata => Sys2Proof.Machine.execWrExpectedDigest7 wdata s
  | .rdUnknown offset => Sys2Proof.Machine.execRdUnknown offset s
  | .wrUnknown offset wdata => Sys2Proof.Machine.execWrUnknown offset wdata s
  | .setKey kbytes => Sys2Proof.Machine.execSetKey kbytes s
  | .setNonce nbytes => Sys2Proof.Machine.execSetNonce nbytes s
  | .loadBegin => Sys2Proof.Machine.execLoadBegin s
  | .loadWord sidx spay => Sys2Proof.Machine.execLoadWord sidx spay s
  | .loadEnd => Sys2Proof.Machine.execLoadEnd s
  | .reset => Sys2Proof.Machine.execReset s
  | .lbcEnc data key width rounds => Sys2Proof.Machine.execLbcEnc data key width rounds s
  | .lbcDec data key width rounds => Sys2Proof.Machine.execLbcDec data key width rounds s
  | .rbcEnc data k1 k0 width rounds => Sys2Proof.Machine.execRbcEnc data k1 k0 width rounds s
  | .eccAdd word => Sys2Proof.Machine.execEccAdd word s
  | .eccChk value => Sys2Proof.Machine.execEccChk value s

end Sys2Proof.Machine
end

