-- ==== Sys2Proof/Machine/Step.lean ====
section
/-! DEFINITION. One step of the machine: it serves the oldest request (00_scope.md R15, R16). The block fetches nothing
(10_state.md R21); with no request issued nothing happens, and a recorded fatal error is a fault (assumption log 2, 6). -/

namespace Sys2Proof.Machine

/-- Serve the oldest request: the operation it decodes to, on the state without it. -/
def step (s : State) : Host.Outcome State Fault Refusal :=
  match nextRequest s with
  | none => idleStep s
  | some (r, t) =>
    match decode r with
    | .ok i => exec i t
    | .error e => refuseUndecoded e t

/-- The state in which the next request served is the one opcode_table.json numbers as `w`, its operands zero
(assumption log 2, 3). -/
def State.withFetchWord (s : State) (nbits w : Nat) : State := placeRequest s (requestOfTableWord nbits w)

end Sys2Proof.Machine
end

