-- ==== Sys2Proof/Safety.lean ====
section
/-! DEFINITION. The terms the claims use: the invariant that rules out the states no run reaches, the properties of the
tables that some rules rest on, and the values LOAD.WORD computes, written from its operands. -/

namespace Sys2Proof.Machine

/-! ### Kinds of operations -/

/-- The operation is a bus read (30_encoding.md R71: `dir` = 0). -/
def isBusRead (i : Instr) : Bool :=
  match encode i with
  | .bus _ descriptor _ => !descriptorIsWrite descriptor
  | .host _ _ => false
  | .prim _ _ => false

/-- The operation is a bus write (30_encoding.md R71: `dir` = 1). -/
def isBusWrite (i : Instr) : Bool :=
  match encode i with
  | .bus _ descriptor _ => descriptorIsWrite descriptor
  | .host _ _ => false
  | .prim _ _ => false

/-- The operation is an alert-test write with bit 0 set (44_register_interface.md R211). -/
def isAlertTest (i : Instr) : Bool :=
  match i with
  | .wrAlertTest wdata => wdata.getLsbD 0
  | _ => false

/-! ### Tables -/

/-- A substitution table that is a permutation of the nibbles, as 40_lightweight_block_cipher.md R102 and
41_reflection_cipher.md R132 take their tables to be. -/
def sboxInvertible (t : Vector Nibble 16) : Bool :=
  (List.range 16).all fun n =>
    lookupInv t (lookup t (BitVec.ofNat 4 n)) == BitVec.ofNat 4 n &&
      lookup t (lookupInv t (BitVec.ofNat 4 n)) == BitVec.ofNat 4 n

/-! ### What LOAD.WORD computes -/

/-- The logical index a scrambled index below `2^W` decodes to: `LBC.DEC(sidx, S.addrKey, W, 2)`
(43_descrambling_pipeline.md R188). -/
def descrambledIndex (s : State) (sidx : Word) : Nat :=
  let w := indexWidth s.cfg
  let key := BitVec.ofNat w s.addrKey.toNat
  (decRounds s.cfg key addrRounds (BitVec.ofNat w sidx.toNat) ^^^ key).toNat

/-- `plain39` of a payload below `2^39` at an index: the data layer, the keystream of the index, bits 38:0
(43_descrambling_pipeline.md R190 steps 5 to 7). -/
def descrambledCodeword (s : State) (idx : Nat) (spay : DWord) : Codeword :=
  decRounds s.cfg 0 dataRounds (spay.setWidth 39) ^^^ (keystream s idx).setWidth 39

/-! ### The invariant -/

/-- What every state a run reaches has (statements InvariantHoldsAtConstruction and StepKeepsInvariant). -/
structure State.Inv (s : State) : Prop where
  /-- the store's canonical form -/
  storeWf : s.store.wf
  /-- the store's addresses are below ROM_BYTES (20_memory.md R51) -/
  storeBound : ∀ e ∈ s.store, e.1 < s.cfg.romBytes
  /-- one accumulator slot per payload index (10_state.md R26) -/
  accLength : s.acc.length = payloadWords s.cfg
  /-- a fatal error is recorded exactly in Failed (60_exceptions.md R250) -/
  failedFatal : s.phase = .failed ↔ s.fatal ≠ none
  /-- outside Failed the block was constructed with an admitted ROM_BYTES (60_exceptions.md R251) -/
  sizeOk : s.phase ≠ .failed → romSizeOk s.cfg = true
  /-- key and nonce are set before the load (43_descrambling_pipeline.md R186) -/
  configured : s.phase = .loading ∨ s.phase = .loaded → s.keySet = true ∧ s.nonceSet = true
  /-- the derived nonce fields (10_state.md R25) -/
  nonceSplit : s.nonceSet = true →
    s.addrKey = splitAddrKey s.cfg s.nonce ∧ s.dataNonce = splitDataNonce s.cfg s.nonce
  /-- outside Failed every slot is below 2^39 (10_state.md R26) -/
  slotBound : s.phase ≠ .failed → ∀ v ∈ s.acc, v.toNat < 2 ^ 39
  /-- in Idle the buffers are zero (70_reset_and_hazards.md R281, corner cases) -/
  idleBuffers : s.phase = .idle →
    s.expected = Vector.replicate 8 0 ∧ s.observed = Vector.replicate 8 0

/-- The operations in order, each on the state the one before leaves, stopping at the first fault or refusal. -/
def execAll : List Instr → State → StepResult
  | [], s => .next s
  | i :: rest, s =>
    match exec i s with
    | .next t => execAll rest t
    | .fault f => .fault f
    | .refused r => .refused r

/-- `n` steps, stopping at the first fault or refusal. -/
def run : Nat → State → StepResult
  | 0, s => .next s
  | n + 1, s =>
    match step s with
    | .next t => run n t
    | .fault f => .fault f
    | .refused r => .refused r

end Sys2Proof.Machine
end

