-- ==== Sys2Proof/Certificates/Slice0/Obligations.lean ====
section
/-! DEFINITION. The statements for the provers. "Admitted" is 44_register_interface.md R205: Idle or Loaded. -/

open Sys2Proof Sys2Proof.Machine

/-! ### Encoding and requests -/

/-- Decoding the encoding of an operation gives it back, every operand at every value (30_encoding.md R71, R77, R78). -/
def Obligations.DecodeOfEncode : Prop :=
  ∀ i : Instr, i.wf = true → decode (encode i) = .ok i

/-- Descriptors and ids written out from 30_encoding.md R71, R72, R77, R78 decode to the operations they stand for. -/
def Obligations.SpecWordsDecode : Prop :=
  (∀ x, decode (.bus 32 0x000000004 x) = .ok .rdFatalAlertCause) ∧
  (∀ x, decode (.bus 32 0x100000000 x) = .ok (.wrAlertTest x.wdata)) ∧
  (∀ x, decode (.bus 32 0x000000048 x) = .ok (.rdUnknown 0x48)) ∧
  (∀ x, decode (.bus 32 0x100000002 x) = .ok (.wrUnknown 0x02 x.wdata)) ∧
  (∀ x, decode (.host 0x11 x) = .ok (.loadWord x.sidx x.spay)) ∧
  (∀ x, decode (.prim 0x50 x) = .ok (.rbcEnc x.rbcData x.rbcK1 x.rbcK0 (x.rbcWidth.getD 64) x.rounds))

/-- Every 32-bit bus access is an operation, and the offset says which: one that is not in the register map selects the
default row of its direction, one that is selects another row of the table, whose own encoding has the same
descriptor (30_encoding.md R71, R85). -/
def Obligations.EveryBusAccessSelectsOneRow : Prop :=
  (∀ (offset : Word) (x : Operands), isRegisterOffset offset = false →
    decode (.bus 32 (0#1 ++ offset) x) = .ok (.rdUnknown offset) ∧
    decode (.bus 32 (1#1 ++ offset) x) = .ok (.wrUnknown offset x.wdata)) ∧
  (∀ (offset : Word) (x : Operands), isRegisterOffset offset = true →
    (∃ i, decode (.bus 32 (0#1 ++ offset) x) = .ok i ∧ i.wf = true ∧ encode i = readRequest offset) ∧
    (∃ i, decode (.bus 32 (1#1 ++ offset) x) = .ok i ∧ i.wf = true ∧ encode i = writeRequest offset x.wdata))

/-- A step serves the oldest request: it is the meaning of the operation the request decodes to, on the state without the
request. With nothing pending and no fatal error recorded nothing happens (the model's choice, assumption log 2). -/
def Obligations.StepServesTheOldestRequest : Prop :=
  (∀ (s : State) (r : Request) (rest : List Request) (i : Instr),
    s.pending = r :: rest → decode r = .ok i → step s = exec i { s with pending := rest }) ∧
  (∀ s : State, s.pending = [] → s.fatal = none → step s = .next s)

/-- Requests that are no operation of the table. A bus access of another width than 32 bits is refused, after the admission
check; a HOST or PRIM id in neither table is refused, in every phase (the order of these checks: assumption log 14)
(20_memory.md R55, 30_encoding.md R85, 44_register_interface.md R205, R206). -/
def Obligations.UndecodableRequestsAreRefused : Prop :=
  (∀ (s : State) (width : Nat) (descriptor : BitVec 33) (x : Operands) (rest : List Request),
    width ≠ 32 → s.pending = .bus width descriptor x :: rest →
    ((s.phase = .idle ∨ s.phase = .loaded) → step s = .refused .narrowAccess) ∧
    (s.phase = .loading → step s = .refused .busDuringLoad) ∧
    (s.phase = .failed → step s = .refused .afterFault)) ∧
  (∀ (s : State) (id : Byte) (x : Operands) (rest : List Request),
    id ∉ [0x01, 0x02, 0x10, 0x11, 0x12, 0x20] → s.pending = .host id x :: rest →
    step s = .refused .unknownOperation) ∧
  (∀ (s : State) (id : Byte) (x : Operands) (rest : List Request),
    id ∉ [0x40, 0x41, 0x50, 0x60, 0x61] → s.pending = .prim id x :: rest →
    step s = .refused .unknownOperation)

/-! ### Construction -/

/-- The power-on values of 10_state.md R36, for every admitted ROM_BYTES. The key and nonce fields, to which R36 gives no
value, are left out (assumption log 5). -/
def Obligations.PowerOnValues : Prop :=
  ∀ c : Config, 32 < c.romBytes → c.romBytes % 4 = 0 →
    let s := State.construct c
    s.phase = .idle ∧ s.keySet = false ∧ s.nonceSet = false ∧ s.acc = List.replicate (c.romBytes / 4 - 8) 0 ∧
    (∀ j : Fin 8, s.expected[j] = 0 ∧ s.observed[j] = 0) ∧ s.checkerError = false ∧ s.integrityError = false ∧
    s.alertLatched = false ∧ s.fatal = none ∧ s.warnings = [] ∧ s.alertEvents = 0

/-- FATAL_ROM_SIZE (60_exceptions.md R251), its examples, and 00_scope.md R9 at the smallest admitted size. -/
def Obligations.RomSizeConstructionError : Prop :=
  (∀ c : Config, c.romBytes ≤ 32 ∨ c.romBytes % 4 ≠ 0 →
    (State.construct c).phase = .failed ∧ (State.construct c).fatal = some ⟨.romSize, c.romBytes⟩ ∧
    ∀ i, exec i (State.construct c) = .refused .afterFault) ∧
  FatalCode.number .romSize = 1 ∧
  (∀ c : Config, c.romBytes = 32 ∨ c.romBytes = 34 → (State.construct c).phase = .failed) ∧
  (∀ c : Config, c.romBytes = 36 → (State.construct c).phase = .idle ∧ romWords c = 9 ∧ indexWidth c = 3) ∧
  (∀ c : Config, (State.construct c).phase = .idle → 36 ≤ c.romBytes)

/-- `W` is the least natural number with `2^W ≥ N − 1`, with R9's examples; when `N − 1` is a power of two, index
`N − 1` is not representable in `W` bits (00_scope.md R9). -/
def Obligations.IndexWidthIsLeast : Prop :=
  (∀ c : Config, romWords c = c.romBytes / 4 ∧ romWords c - 1 ≤ 2 ^ indexWidth c ∧
    ∀ w, romWords c - 1 ≤ 2 ^ w → indexWidth c ≤ w) ∧
  (∀ (c : Config) (w : Nat), romWords c - 1 = 2 ^ w → 2 ^ indexWidth c ≤ romWords c - 1) ∧
  (∀ c : Config,
    (romWords c = 9 → indexWidth c = 3) ∧ (romWords c = 12 → indexWidth c = 4) ∧
    (romWords c = 16 → indexWidth c = 4) ∧ (romWords c = 17 → indexWidth c = 4) ∧
    (romWords c = 64 → indexWidth c = 6) ∧ (romWords c = 65 → indexWidth c = 6) ∧
    (romWords c = 8192 → indexWidth c = 13))

/-! ### Bus accesses -/

/-- `RD.DIGEST0` to `RD.DIGEST7` return the observed digest's words and change nothing else
(44_register_interface.md R214 to R221). -/
def Obligations.DigestReadsComplete : Prop :=
  ∀ s : State, s.phase = .idle ∨ s.phase = .loaded →
    exec .rdDigest0 s = .next { s with responses := s.responses ++ [.rdata s.observed[0]] } ∧
    exec .rdDigest1 s = .next { s with responses := s.responses ++ [.rdata s.observed[1]] } ∧
    exec .rdDigest2 s = .next { s with responses := s.responses ++ [.rdata s.observed[2]] } ∧
    exec .rdDigest3 s = .next { s with responses := s.responses ++ [.rdata s.observed[3]] } ∧
    exec .rdDigest4 s = .next { s with responses := s.responses ++ [.rdata s.observed[4]] } ∧
    exec .rdDigest5 s = .next { s with responses := s.responses ++ [.rdata s.observed[5]] } ∧
    exec .rdDigest6 s = .next { s with responses := s.responses ++ [.rdata s.observed[6]] } ∧
    exec .rdDigest7 s = .next { s with responses := s.responses ++ [.rdata s.observed[7]] }

/-- `RD.EXPECTED_DIGEST0` to `RD.EXPECTED_DIGEST7` return the expected digest's words and change nothing else
(44_register_interface.md R230 to R237). -/
def Obligations.ExpectedDigestReadsComplete : Prop :=
  ∀ s : State, s.phase = .idle ∨ s.phase = .loaded →
    exec .rdExpectedDigest0 s = .next { s with responses := s.responses ++ [.rdata s.expected[0]] } ∧
    exec .rdExpectedDigest1 s = .next { s with responses := s.responses ++ [.rdata s.expected[1]] } ∧
    exec .rdExpectedDigest2 s = .next { s with responses := s.responses ++ [.rdata s.expected[2]] } ∧
    exec .rdExpectedDigest3 s = .next { s with responses := s.responses ++ [.rdata s.expected[3]] } ∧
    exec .rdExpectedDigest4 s = .next { s with responses := s.responses ++ [.rdata s.expected[4]] } ∧
    exec .rdExpectedDigest5 s = .next { s with responses := s.responses ++ [.rdata s.expected[5]] } ∧
    exec .rdExpectedDigest6 s = .next { s with responses := s.responses ++ [.rdata s.expected[6]] } ∧
    exec .rdExpectedDigest7 s = .next { s with responses := s.responses ++ [.rdata s.expected[7]] }

/-- `RD.ALERT_TEST` returns 0; `RD.FATAL_ALERT_CAUSE` returns the checker flag in bit 0, the integrity flag in bit 1 and 0
in every other bit (44_register_interface.md R207, R210, R212). -/
def Obligations.AlertRegisterReadsComplete : Prop :=
  ∀ s : State, s.phase = .idle ∨ s.phase = .loaded →
    exec .rdAlertTest s = .next { s with responses := s.responses ++ [.rdata 0] } ∧
    ∃ v : Word, exec .rdFatalAlertCause s = .next { s with responses := s.responses ++ [.rdata v] } ∧
      v.getLsbD 0 = s.checkerError ∧ v.getLsbD 1 = s.integrityError ∧ ∀ b, 2 ≤ b → v.getLsbD b = false

/-- A write to a read-only register is ignored: no state changes, nothing faults, nothing is logged
(44_register_interface.md R208). -/
def Obligations.ReadOnlyWritesAreIgnored : Prop :=
  ∀ (s : State) (w : Word), s.phase = .idle ∨ s.phase = .loaded →
    exec (.wrFatalAlertCause w) s = .next s ∧
    exec (.wrDigest0 w) s = .next s ∧
    exec (.wrDigest1 w) s = .next s ∧
    exec (.wrDigest2 w) s = .next s ∧
    exec (.wrDigest3 w) s = .next s ∧
    exec (.wrDigest4 w) s = .next s ∧
    exec (.wrDigest5 w) s = .next s ∧
    exec (.wrDigest6 w) s = .next s ∧
    exec (.wrDigest7 w) s = .next s ∧
    exec (.wrExpectedDigest0 w) s = .next s ∧
    exec (.wrExpectedDigest1 w) s = .next s ∧
    exec (.wrExpectedDigest2 w) s = .next s ∧
    exec (.wrExpectedDigest3 w) s = .next s ∧
    exec (.wrExpectedDigest4 w) s = .next s ∧
    exec (.wrExpectedDigest5 w) s = .next s ∧
    exec (.wrExpectedDigest6 w) s = .next s ∧
    exec (.wrExpectedDigest7 w) s = .next s

/-- `WR.ALERT_TEST`: with bit 0 set it sets both flags and the latch and emits one alert event, unless
ALERT_RETRIGGER is false and the latch is set; with bit 0 clear it changes nothing (44_register_interface.md R211). -/
def Obligations.AlertTestWriteCompletes : Prop :=
  ∀ (s : State) (w : Word), s.phase = .idle ∨ s.phase = .loaded →
    (w.getLsbD 0 = true → (s.cfg.alertRetrigger = true ∨ s.alertLatched = false) →
      exec (.wrAlertTest w) s = .next { s with
        checkerError := true, integrityError := true, alertLatched := true, alertEvents := s.alertEvents + 1 }) ∧
    (w.getLsbD 0 = true → s.cfg.alertRetrigger = false → s.alertLatched = true →
      exec (.wrAlertTest w) s = .next { s with checkerError := true, integrityError := true }) ∧
    (w.getLsbD 0 = false → exec (.wrAlertTest w) s = .next s)

/-- `RD.UNKNOWN` returns 0 and `WR.UNKNOWN` is ignored; each logs one warning with the offset and changes nothing else
(44_register_interface.md R246, R247). -/
def Obligations.UnknownOffsetAccessesComplete : Prop :=
  ∀ (s : State) (offset w : Word), s.phase = .idle ∨ s.phase = .loaded →
    exec (.rdUnknown offset) s = .next { s with
      responses := s.responses ++ [.rdata 0], warnings := s.warnings ++ [⟨.unknownOffset, offset.toNat⟩] } ∧
    exec (.wrUnknown offset w) s = .next { s with
      warnings := s.warnings ++ [⟨.unknownOffset, offset.toNat⟩] }

/-- Every bus access completes in Idle and Loaded, and is refused in Loading and in Failed
(44_register_interface.md R205). -/
def Obligations.BusAdmission : Prop :=
  ∀ (i : Instr) (s : State), i.format = .bus →
    ((s.phase = .idle ∨ s.phase = .loaded) → ∃ t, exec i s = .next t) ∧
    (s.phase = .loading → exec i s = .refused .busDuringLoad) ∧
    (s.phase = .failed → exec i s = .refused .afterFault)

/-- A misaligned offset is an unknown offset: a read returns 0, a write is ignored, each logs a warning, and neither
faults (20_memory.md R56). -/
def Obligations.MisalignedOffsetIsUnknown : Prop :=
  ∀ (s : State) (offset w : Word) (rest : List Request),
    offset.toNat % 4 ≠ 0 → s.phase = .idle ∨ s.phase = .loaded →
    (s.pending = readRequest offset :: rest →
      step s = .next { s with
        pending := rest
        responses := s.responses ++ [.rdata 0]
        warnings := s.warnings ++ [⟨.unknownOffset, offset.toNat⟩] }) ∧
    (s.pending = writeRequest offset w :: rest →
      step s = .next { s with
        pending := rest
        warnings := s.warnings ++ [⟨.unknownOffset, offset.toNat⟩] })

/-- A bus read changes no architectural field: only the value returned and, for an unknown offset, the warning log;
and a second read of the same register returns the same value (20_memory.md R57). -/
def Obligations.BusReadsHaveNoSideEffect : Prop :=
  ∀ (i : Instr) (s t : State), isBusRead i = true → exec i s = .next t →
    ∃ v : Word, t.responses = s.responses ++ [.rdata v] ∧
      t = { s with responses := t.responses, warnings := t.warnings } ∧
      ((∀ offset, i ≠ .rdUnknown offset) → t.warnings = s.warnings) ∧
      (∀ offset, i = .rdUnknown offset → t.warnings = s.warnings ++ [⟨.unknownOffset, offset.toNat⟩]) ∧
      ∃ u, exec i t = .next u ∧ u.responses = t.responses ++ [.rdata v]

/-- Every bus write other than an alert test with bit 0 set changes no architectural field (20_memory.md R58). -/
def Obligations.OnlyTheAlertTestWriteHasAnEffect : Prop :=
  ∀ (i : Instr) (s t : State), isBusWrite i = true → isAlertTest i = false → exec i s = .next t →
    t = { s with warnings := t.warnings }

/-- What a bus access returns depends on nothing but the phase, the two flags and the two digest buffers: two blocks that
agree on these, with any keys, nonces, accumulators, stores and configurations, answer alike (10_state.md R37,
44_register_interface.md R248). -/
def Obligations.BusAccessRevealsOnlyFlagsAndDigests : Prop :=
  ∀ (i : Instr) (s t s' : State), i.format = .bus → s.phase = t.phase → s.checkerError = t.checkerError →
    s.integrityError = t.integrityError → s.observed = t.observed → s.expected = t.expected →
    exec i s = .next s' →
    ∃ t', exec i t = .next t' ∧ s'.checkerError = t'.checkerError ∧ s'.integrityError = t'.integrityError ∧
      ∃ out, s'.responses = s.responses ++ out ∧ t'.responses = t.responses ++ out

/-- The corner-case remark of 44_register_interface.md R212, as a property every step would keep: the checker flag is
never set without the integrity flag. It is expected to FAIL: WR.ALERT_TEST in Idle sets both, and a LOAD.END whose
digests agree then clears the integrity flag alone (43_descrambling_pipeline.md R196; assumption log 13). -/
def Obligations.CheckerErrorNeverStandsAlone : Prop :=
  ∀ s t : State, s.Inv → (s.checkerError = true → s.integrityError = true) → step s = .next t →
    (t.checkerError = true → t.integrityError = true)

/-- The alert fires by WR.ALERT_TEST with bit 0 set and by no other operation, exactly once under
ALERT_RETRIGGER = true (60_exceptions.md R261). -/
def Obligations.OnlyTheAlertTestFiresTheAlert : Prop :=
  ∀ (i : Instr) (s t : State), exec i s = .next t →
    (isAlertTest i = false → t.alertEvents = s.alertEvents) ∧
    (isAlertTest i = true → s.cfg.alertRetrigger = true → t.alertEvents = s.alertEvents + 1)

/-! ### Configuration -/

/-- `SETKEY` with 16 bytes: under the default KEY_BYTE_ORDER they are one little-endian number `K`, `k0 = K[127:64]` and
`k1 = K[63:0]`; under the big-endian one each half is read most significant byte first, `k1` still the first eight bytes
(30_encoding.md R81, 43_descrambling_pipeline.md R181, decision D5). -/
def Obligations.SetKeyCompletes : Prop :=
  ∀ (s : State) (kbytes : List Byte), s.phase = .idle → s.keySet = false → kbytes.length = 16 →
    ∃ k0 k1 : DWord, exec (.setKey kbytes) s = .next { s with k0 := k0, k1 := k1, keySet := true } ∧
      (s.cfg.keyByteOrder = .little →
        k1.toNat = ofLeBytes (kbytes.take 8) ∧ k0.toNat = ofLeBytes (kbytes.drop 8) ∧
        ofLeBytes kbytes = k0.toNat * 2 ^ 64 + k1.toNat) ∧
      (s.cfg.keyByteOrder = .big →
        k1.toNat = ofLeBytes (kbytes.take 8).reverse ∧ k0.toNat = ofLeBytes (kbytes.drop 8).reverse)

/-- `SETNONCE` with 8 bytes: the nonce is their number, least significant byte first under the default KEY_BYTE_ORDER and
most significant byte first under the big-endian one (decision D5); for `W` up to 64 the address key and the data nonce
are its split (43_descrambling_pipeline.md R182, R183). For a larger `W`, to which the spec gives no split, the last
clause is the model's own choice (DESIGN CHOICE, assumption log 12): no rule is its source. -/
def Obligations.SetNonceCompletes : Prop :=
  ∀ (s : State) (nbytes : List Byte), s.phase = .idle → s.nonceSet = false → nbytes.length = 8 →
    ∃ nonce addrKey dataNonce : DWord,
      exec (.setNonce nbytes) s = .next { s with
        nonce := nonce
        addrKey := addrKey
        dataNonce := dataNonce
        nonceSet := true } ∧
      (s.cfg.keyByteOrder = .little → nonce.toNat = ofLeBytes nbytes) ∧
      (s.cfg.keyByteOrder = .big → nonce.toNat = ofLeBytes nbytes.reverse) ∧
      (indexWidth s.cfg ≤ 64 →
        addrKey.toNat = nonce.toNat / 2 ^ (64 - indexWidth s.cfg) ∧
        dataNonce.toNat = nonce.toNat * 2 ^ indexWidth s.cfg % 2 ^ 64) ∧
      (64 < indexWidth s.cfg → addrKey = nonce ∧ dataNonce = 0)

/-- A key of another length than 16 and a nonce of another length than 8 are fatal, with the length recorded and nothing
else changed (60_exceptions.md R252, R253). -/
def Obligations.MalformedKeyAndNonceAreFatal : Prop :=
  (∀ (s : State) (kbytes : List Byte), s.phase = .idle → s.keySet = false → kbytes.length ≠ 16 →
    exec (.setKey kbytes) s = .next { s with fatal := some ⟨.keyFormat, kbytes.length⟩, phase := .failed }) ∧
  (∀ (s : State) (nbytes : List Byte), s.phase = .idle → s.nonceSet = false → nbytes.length ≠ 8 →
    exec (.setNonce nbytes) s = .next { s with fatal := some ⟨.nonceFormat, nbytes.length⟩, phase := .failed }) ∧
  FatalCode.number .keyFormat = 2 ∧ FatalCode.number .nonceFormat = 3

/-- The nonce split: the address key is the top `W` bits and fits in `W` bits, the data nonce is the other bits moved up
by `W`, its low `W` bits zero (43_descrambling_pipeline.md R183). -/
def Obligations.NonceSplit : Prop :=
  ∀ (c : Config) (nonce : DWord), indexWidth c ≤ 64 →
    (splitAddrKey c nonce).toNat = nonce.toNat / 2 ^ (64 - indexWidth c) ∧
    (splitAddrKey c nonce).toNat < 2 ^ indexWidth c ∧
    (splitDataNonce c nonce).toNat = nonce.toNat * 2 ^ indexWidth c % 2 ^ 64 ∧
    (splitDataNonce c nonce).toNat % 2 ^ indexWidth c = 0

/-- SETKEY and SETNONCE are refused a second time and outside Idle (43_descrambling_pipeline.md R181, R182;
60_exceptions.md R255). -/
def Obligations.ConfigurationRefusals : Prop :=
  ∀ (s : State) (bytes : List Byte), s.phase ≠ .failed →
    (s.phase ≠ .idle ∨ s.keySet = true → exec (.setKey bytes) s = .refused .configState) ∧
    (s.phase ≠ .idle ∨ s.nonceSet = true → exec (.setNonce bytes) s = .refused .configState)

/-- Key and nonce are immutable once set (10_state.md R24, R25). -/
def Obligations.KeyAndNonceAreImmutableOnceSet : Prop :=
  ∀ s t : State, step s = .next t →
    (s.keySet = true → t.keySet = true ∧ t.k0 = s.k0 ∧ t.k1 = s.k1) ∧
    (s.nonceSet = true → t.nonceSet = true ∧ t.nonce = s.nonce ∧ t.addrKey = s.addrKey ∧
      t.dataNonce = s.dataNonce)

/-! ### The load -/

/-- `LOAD.BEGIN` in Idle with key and nonce set clears the accumulator and the expected digest and enters Loading; nothing
else changes, the flags among it (43_descrambling_pipeline.md R186). -/
def Obligations.LoadBeginCompletes : Prop :=
  ∀ s : State, s.phase = .idle → s.keySet = true → s.nonceSet = true →
    exec .loadBegin s = .next { s with
      acc := List.replicate (romWords s.cfg - 8) 0
      expected := Vector.replicate 8 0
      phase := .loading }

/-- LOAD.BEGIN outside Idle or before key and nonce are set, LOAD.WORD and LOAD.END outside Loading, and RESET in Loading
are refused (43_descrambling_pipeline.md R186, R187, R196; 70_reset_and_hazards.md R281; 60_exceptions.md R255). -/
def Obligations.LoadRefusals : Prop :=
  ∀ (s : State) (sidx : Word) (spay : DWord), s.phase ≠ .failed →
    (s.phase ≠ .idle → exec .loadBegin s = .refused .loadState) ∧
    (s.phase = .idle → s.keySet = false ∨ s.nonceSet = false → exec .loadBegin s = .refused .unconfigured) ∧
    (s.phase ≠ .loading → exec (.loadWord sidx spay) s = .refused .loadState) ∧
    (s.phase ≠ .loading → exec .loadEnd s = .refused .loadState) ∧
    (s.phase = .loading → exec .reset s = .refused .loadState)

/-- `LOAD.WORD` of a word that decodes inside the store, for `W` up to 64, the widths the cipher takes (assumption log 12):
the payload goes to its expected word or its accumulator slot, a
code mismatch outside the digest region is logged, and the decoded word is written at byte address `idx × 4`
(43_descrambling_pipeline.md R187 to R190). The bytes written under a STORE_BYTE_ORDER other than the default are the
model's choice (assumption log 27). -/
def Obligations.LoadWordCompletes : Prop :=
  ∀ (s : State) (sidx : Word) (spay : DWord), s.phase = .loading → indexWidth s.cfg ≤ 64 →
    s.addrKey.toNat < 2 ^ indexWidth s.cfg → sidx.toNat < 2 ^ indexWidth s.cfg →
    descrambledIndex s sidx < romWords s.cfg → spay.toNat < 2 ^ 39 →
    let n := romWords s.cfg
    let idx := descrambledIndex s sidx
    let plain := descrambledCodeword s idx spay
    exec (.loadWord sidx spay) s = .next { s with
      expected := if n - 8 ≤ idx then s.expected.setIfInBounds (idx - (n - 8)) (spay.extractLsb' 0 32) else s.expected
      acc := if n - 8 ≤ idx then s.acc else s.acc.set idx spay
      warnings := if idx < n - 8 ∧ eccChk s.cfg.tables plain = false then s.warnings ++ [⟨.ecc, idx⟩] else s.warnings
      store := s.store.writeBytes (idx * 4) (bytesOf s.cfg.storeByteOrder 4 (plain.extractLsb' 0 32).toNat) }

/-- `MemWrite(addr, 4, v)` inside the store writes `LE_4(v)` to `addr .. addr + 3` under the default STORE_BYTE_ORDER and
changes no other byte (20_memory.md R52). -/
def Obligations.MemWriteWritesFourBytes : Prop :=
  ∀ (s : State) (addr : Nat) (v : Word), s.cfg.storeByteOrder = .little → addr + 4 ≤ s.cfg.romBytes →
    ∃ m : Memory, memWrite s addr v = .next { s with store := m } ∧
      (∀ k, k < 4 → m.read (addr + k) = some (v.extractLsb' (8 * k) 8)) ∧
      (∀ a, a < addr ∨ addr + 4 ≤ a → m.read a = s.store.read a)

/-- No operation but LOAD.WORD changes a byte of the backing store, and LOAD.WORD changes at most the four bytes of one
aligned word inside it: that of the index its scrambled index decodes to (20_memory.md R51, R53). -/
def Obligations.OnlyLoadWordWritesTheStore : Prop :=
  ∀ (i : Instr) (s t : State), exec i s = .next t →
    ((∀ sidx spay, i ≠ .loadWord sidx spay) → t.store = s.store) ∧
    (∀ sidx spay, i = .loadWord sidx spay →
      t.store = s.store ∨
      (descrambledIndex s sidx < romWords s.cfg ∧ descrambledIndex s sidx * 4 + 4 ≤ s.cfg.romBytes ∧
        ∀ a, a < descrambledIndex s sidx * 4 ∨ descrambledIndex s sidx * 4 + 4 ≤ a →
          t.store.read a = s.store.read a))

/-- FATAL_INDEX_WIDTH and FATAL_INDEX_RANGE: a scrambled index of `2^W` or more, and a decoded index of `N` or more; the
index is recorded, nothing else changes, the payload not even looked at (60_exceptions.md R254, R256). -/
def Obligations.IndexErrorsAreFatal : Prop :=
  (∀ (s : State) (sidx : Word) (spay : DWord), s.phase = .loading → 2 ^ indexWidth s.cfg ≤ sidx.toNat →
    exec (.loadWord sidx spay) s = .next { s with fatal := some ⟨.indexWidth, sidx.toNat⟩, phase := .failed }) ∧
  (∀ (s : State) (sidx : Word) (spay : DWord), s.phase = .loading → indexWidth s.cfg ≤ 64 →
    s.addrKey.toNat < 2 ^ indexWidth s.cfg → sidx.toNat < 2 ^ indexWidth s.cfg →
    romWords s.cfg ≤ descrambledIndex s sidx →
    exec (.loadWord sidx spay) s =
      .next { s with fatal := some ⟨.indexRange, descrambledIndex s sidx⟩, phase := .failed }) ∧
  FatalCode.number .indexWidth = 4 ∧ FatalCode.number .indexRange = 5

/-- FATAL_PAYLOAD_WIDTH: a payload of `2^39` or more is fatal after its expected word or accumulator slot has been
written; the store is not written (60_exceptions.md R257, R250; 43_descrambling_pipeline.md R190). -/
def Obligations.PayloadErrorKeepsEarlierWrites : Prop :=
  (∀ (s : State) (sidx : Word) (spay : DWord), s.phase = .loading → indexWidth s.cfg ≤ 64 →
    s.addrKey.toNat < 2 ^ indexWidth s.cfg → sidx.toNat < 2 ^ indexWidth s.cfg →
    descrambledIndex s sidx < romWords s.cfg → 2 ^ 39 ≤ spay.toNat →
    let n := romWords s.cfg
    let idx := descrambledIndex s sidx
    exec (.loadWord sidx spay) s = .next { s with
      expected := if n - 8 ≤ idx then s.expected.setIfInBounds (idx - (n - 8)) (spay.extractLsb' 0 32) else s.expected
      acc := if n - 8 ≤ idx then s.acc else s.acc.set idx spay
      fatal := some ⟨.payloadWidth, spay.toNat⟩
      phase := .failed }) ∧
  FatalCode.number .payloadWidth = 6

/-- When `N − 1` is a power of two no scrambled index decodes to `N − 1`: a step leaves the last expected word at 0 and
writes no byte of backing-store word `N − 1` (43_descrambling_pipeline.md R191). -/
def Obligations.TopIndexIsUnreachable : Prop :=
  ∀ (s t : State) (k : Nat), romWords s.cfg = 2 ^ k + 1 → romSizeOk s.cfg = true → step s = .next t →
    (∀ sidx, descrambledIndex s sidx ≠ romWords s.cfg - 1) ∧
    (s.expected[7] = 0 → t.expected[7] = 0) ∧
    ∀ a, (romWords s.cfg - 1) * 4 ≤ a → a < (romWords s.cfg - 1) * 4 + 4 → t.store.read a = s.store.read a

/-- `LOAD.END`: the observed digest is the hash of the hash input, word `j` its bytes `4j` to `4j + 3`, little-endian under
the default DIGEST_BYTE_ORDER (the big-endian clause is the model's choice, assumption log 27: D9 names no other value), the integrity flag the comparison with the expected digest, the phase Loaded; nothing else changes, the
checker flag and the alert count among it (43_descrambling_pipeline.md R196, R201, R202, decision D9). -/
def Obligations.LoadEndCompletes : Prop :=
  ∀ s : State, s.phase = .loading →
    ∃ (observed : Vector Word 8) (mismatch : Bool),
      exec .loadEnd s = .next { s with observed := observed, integrityError := mismatch, phase := .loaded } ∧
      (∀ j : Fin 8, s.cfg.digestByteOrder = .little →
        observed[j].toNat = ofLeBytes (((hashOf s.cfg (hashInput s)).drop (4 * j.val)).take 4)) ∧
      (∀ j : Fin 8, s.cfg.digestByteOrder = .big →
        observed[j].toNat = ofLeBytes (((hashOf s.cfg (hashInput s)).drop (4 * j.val)).take 4).reverse) ∧
      (mismatch = true ↔ ∃ j : Fin 8, observed[j] ≠ s.expected[j])

/-- The hash input is the slots in increasing index order, 8 little-endian bytes each, the digest region no part of it:
`8 × (N − 8)` bytes, 448 for `N = 64` (43_descrambling_pipeline.md R199). -/
def Obligations.HashInputLayout : Prop :=
  ∀ s : State, s.acc.length = romWords s.cfg - 8 →
    (hashInput s).length = 8 * (romWords s.cfg - 8) ∧
    (romWords s.cfg = 64 → (hashInput s).length = 448) ∧
    (∀ (i : Nat) (h : i < s.acc.length),
      ((hashInput s).drop (8 * i)).take 8 = leBytes 8 (slotValue s i s.acc[i])) ∧
    (s.cfg.hashSlotForm = .raw39 → ∀ i v, slotValue s i v = v.toNat) ∧
    (s.cfg.hashSlotForm = .rawLow32 → ∀ i v, slotValue s i v = v.toNat % 2 ^ 32) ∧
    (s.cfg.hashSlotForm = .decoded32 → ∀ i (v : DWord), v.toNat < 2 ^ 39 →
      slotValue s i v = ((descrambledCodeword s i v).extractLsb' 0 32).toNat)

/-- `ObsBytes ≠ ExpBytes` is true exactly when some word differs, whatever the DIGEST_BYTE_ORDER, whose values beside the
default are the model's (assumption log 27; 43_descrambling_pipeline.md R202). -/
def Obligations.DigestComparisonIsByWords : Prop :=
  ∀ s : State, digestsDiffer s = true ↔ ∃ j : Fin 8, s.observed[j] ≠ s.expected[j]

/-- The keystream input `idx | S.dataNonce` is the concatenation of the nonce's low `64 − W` bits and the index
(30_encoding.md R83). -/
def Obligations.KeystreamInputIsConcatenation : Prop :=
  ∀ (s : State) (idx : Nat), indexWidth s.cfg ≤ 64 → s.dataNonce = splitDataNonce s.cfg s.nonce →
    idx < 2 ^ indexWidth s.cfg →
    (keystreamInput s idx).toNat =
      s.nonce.toNat % 2 ^ (64 - indexWidth s.cfg) * 2 ^ indexWidth s.cfg + idx

/-- The pseudo-operation LOAD is its expansion: serving LOAD.BEGIN, the LOAD.WORDs and LOAD.END one step at a time, with
any requests behind them, gives what `loadImage` gives whenever no fatal error ends it (30_encoding.md R88). -/
def Obligations.LoadIsItsExpansion : Prop :=
  ∀ (image : List (Word × DWord)) (s t : State) (rest : List Request),
    s.pending = expandLoad image ++ rest → loadImage image { s with pending := rest } = .next t →
    t.phase = .loaded → run (image.length + 2) s = .next t

/-- A fatal error ends the expansion of LOAD: the entries after the one that raises it have no effect, and LOAD.END does not
run, so that the pseudo-operation leaves exactly the state the fatal error left (30_encoding.md R88). -/
def Obligations.FatalErrorEndsTheLoad : Prop :=
  (∀ (front back : List (Word × DWord)) (s t : State), s.phase = .loading →
    loadWords front s = .next t → t.phase = .failed → loadWords (front ++ back) s = .next t) ∧
  (∀ (front back : List (Word × DWord)) (s u t : State), execLoadBegin s = .next u →
    loadWords front u = .next t → t.phase = .failed → loadImage (front ++ back) s = .next t)

/-! ### Reset -/

/-- `RESET` in Idle and Loaded recomputes the integrity flag and clears the checker flag and the alert latch; nothing else
changes (70_reset_and_hazards.md R281). -/
def Obligations.ResetCompletes : Prop :=
  ∀ s : State, s.phase = .idle ∨ s.phase = .loaded →
    ∃ mismatch : Bool,
      exec .reset s = .next { s with integrityError := mismatch, checkerError := false, alertLatched := false } ∧
      (mismatch = true ↔ ∃ j : Fin 8, s.observed[j] ≠ s.expected[j]) ∧
      (s.Inv → s.phase = .idle → mismatch = false)

/-- Two RESETs leave the state one leaves; a RESET after LOAD.END, any operations between them, leaves the integrity flag as
LOAD.END set it (70_reset_and_hazards.md R282; the rule leaves out the case of an alert test between them, for which the
fresh comparison of R281 gives the same). -/
def Obligations.ResetLaws : Prop :=
  (∀ s t : State, exec .reset s = .next t → exec .reset t = .next t) ∧
  (∀ (s t u v : State) (ops : List Instr), exec .loadEnd s = .next t → execAll ops t = .next u →
    exec .reset u = .next v → v.integrityError = t.integrityError)

/-- RESET does not permit a second load, a new key or a new nonce (70_reset_and_hazards.md R283). -/
def Obligations.ResetDoesNotReopenTheLoad : Prop :=
  ∀ (s t : State) (bytes : List Byte), s.phase = .loaded → exec .reset s = .next t →
    t.phase = .loaded ∧ exec .loadBegin t = .refused .loadState ∧
    exec (.setKey bytes) t = .refused .configState ∧ exec (.setNonce bytes) t = .refused .configState

/-! ### Primitives -/

/-- LBC.DEC inverts LBC.ENC and LBC.ENC inverts LBC.DEC, for every width up to 64, round count, key and datum below
`2^width`, both values of LBC_FLIP, and every substitution table that is a permutation
(40_lightweight_block_cipher.md R109). -/
def Obligations.LbcRoundTrip : Prop :=
  ∀ (c : Config) (d k w r : Nat), sboxInvertible c.tables.presentSbox = true → w ≤ 64 → k < 2 ^ w → d < 2 ^ w →
    (∃ v : DWord, v.toNat < 2 ^ w ∧ lbcEnc c d k w r = .value v ∧
      ∃ u : DWord, u.toNat = d ∧ lbcDec c v.toNat k w r = .value u) ∧
    (∃ v : DWord, v.toNat < 2 ^ w ∧ lbcDec c d k w r = .value v ∧
      ∃ u : DWord, u.toNat = d ∧ lbcEnc c v.toNat k w r = .value u)

/-- For a fixed key, width and round count LBC.ENC and LBC.DEC are bijections of `[0, 2^w)`
(40_lightweight_block_cipher.md R110). -/
def Obligations.LbcIsBijective : Prop :=
  ∀ (c : Config) (k w r : Nat), sboxInvertible c.tables.presentSbox = true → w ≤ 64 → k < 2 ^ w →
    (∀ d e, d < 2 ^ w → e < 2 ^ w → lbcEnc c d k w r = lbcEnc c e k w r → d = e) ∧
    (∀ d e, d < 2 ^ w → e < 2 ^ w → lbcDec c d k w r = lbcDec c e k w r → d = e) ∧
    (∀ v : DWord, v.toNat < 2 ^ w → ∃ d, d < 2 ^ w ∧ lbcEnc c d k w r = .value v) ∧
    (∀ v : DWord, v.toNat < 2 ^ w → ∃ d, d < 2 ^ w ∧ lbcDec c d k w r = .value v)

/-- LBC.ENC and LBC.DEC as primitive calls: on operands in the domain they return their value, below `2^width`, and change
nothing else (40_lightweight_block_cipher.md R107, R108). -/
def Obligations.LbcCallsComplete : Prop :=
  ∀ (s : State) (data key width rounds : Nat), s.phase ≠ .failed → width ≤ 64 → data < 2 ^ width → key < 2 ^ width →
    let k := BitVec.ofNat width key
    let enc : DWord := (encRounds s.cfg k rounds (BitVec.ofNat width data) ^^^ k).setWidth 64
    let dec : DWord := (decRounds s.cfg k rounds (BitVec.ofNat width data) ^^^ k).setWidth 64
    exec (.lbcEnc data key width rounds) s = .next { s with responses := s.responses ++ [.value enc] } ∧
    exec (.lbcDec data key width rounds) s = .next { s with responses := s.responses ++ [.value dec] } ∧
    enc.toNat < 2 ^ width ∧ dec.toNat < 2 ^ width

/-- LBC outside its domain: a width above 64 or a datum that does not fit returns `Err(LbcDomain)`; else a key that does
not fit is refused (40_lightweight_block_cipher.md R107, R108). -/
def Obligations.LbcDomainErrors : Prop :=
  ∀ (s : State) (data key width rounds : Nat), s.phase ≠ .failed →
    (64 < width ∨ 2 ^ width ≤ data →
      exec (.lbcEnc data key width rounds) s = .next { s with responses := s.responses ++ [.lbcDomain] } ∧
      exec (.lbcDec data key width rounds) s = .next { s with responses := s.responses ++ [.lbcDomain] }) ∧
    (width ≤ 64 → data < 2 ^ width → 2 ^ width ≤ key →
      exec (.lbcEnc data key width rounds) s = .refused .lbcKeyWidth ∧
      exec (.lbcDec data key width rounds) s = .refused .lbcKeyWidth)

/-- The corner cases of 40_lightweight_block_cipher.md R107: no rounds give `data ^ key`; at width 0 the result is 0; at
width 1 it is `data ^ key` for an even number of rounds and `data` for an odd one. -/
def Obligations.LbcCornerCases : Prop :=
  (∀ (c : Config) (data key width : Nat), width ≤ 64 → data < 2 ^ width → key < 2 ^ width →
    ∃ v : DWord, v.toNat = data ^^^ key ∧ lbcEnc c data key width 0 = .value v ∧ lbcDec c data key width 0 = .value v) ∧
  (∀ (c : Config) (rounds : Nat), lbcEnc c 0 0 0 rounds = .value 0 ∧ lbcDec c 0 0 0 rounds = .value 0) ∧
  (∀ (c : Config) (data key rounds : Nat), data < 2 → key < 2 →
    ∃ v : DWord, v.toNat = (if rounds % 2 = 0 then data ^^^ key else data) ∧
      lbcEnc c data key 1 rounds = .value v ∧ lbcDec c data key 1 rounds = .value v)

/-- RBC.ENC as a primitive call: width 64 and an even number of rounds up to 10 return its value and change nothing else;
any other width, and an odd or larger number of rounds, is refused (41_reflection_cipher.md R130, R139). Where both are
wrong the rules name two refusals; that the width's comes first, the last clause, is DEDUCED by the model (assumption
log 16). -/
def Obligations.RbcCallCompletes : Prop :=
  ∀ (s : State) (data k1 k0 : DWord) (width rounds : Nat), s.phase ≠ .failed →
    (width = 64 → rounds % 2 = 0 → rounds ≤ 10 →
      exec (.rbcEnc data k1 k0 width rounds) s =
        .next { s with responses := s.responses ++ [.value (rbcEnc s.cfg.tables data k1 k0 rounds)] }) ∧
    (width = 64 → rounds % 2 = 1 ∨ 10 < rounds →
      exec (.rbcEnc data k1 k0 width rounds) s = .refused .rbcRounds) ∧
    (width ≠ 64 → rounds % 2 = 0 → rounds ≤ 10 →
      exec (.rbcEnc data k1 k0 width rounds) s = .refused .rbcWidth) ∧
    (width ≠ 64 → rounds % 2 = 1 ∨ 10 < rounds →
      exec (.rbcEnc data k1 k0 width rounds) s = .refused .rbcWidth)

/-- MPRIME is an involution and SR_INV inverts SR on both sides, with the default tables
(41_reflection_cipher.md R134, R135). -/
def Obligations.MixingLayersInvert : Prop :=
  ∀ x : DWord, mprime defaultTables (mprime defaultTables x) = x ∧
    shiftRowsInv defaultTables (shiftRows defaultTables x) = x ∧
    shiftRows defaultTables (shiftRowsInv defaultTables x) = x

/-- RBC is a permutation of the 64-bit values for every key and admitted number of rounds, with the default tables
(00_scope.md R2, 41_reflection_cipher.md R139). -/
def Obligations.RbcIsInjective : Prop :=
  ∀ (d e k1 k0 : DWord) (rounds : Nat), rounds % 2 = 0 → rounds ≤ 10 →
    rbcEnc defaultTables d k1 k0 rounds = rbcEnc defaultTables e k1 k0 rounds → d = e

/-- ECC.CHK accepts ECC.ADD of every word, rejects it with any one bit flipped and, with the default masks, with any two
distinct bits flipped (42_hsiao_secded.md R165). -/
def Obligations.EccDetectsSingleAndDoubleErrors : Prop :=
  ∀ w : Word,
    eccChk defaultTables (eccAdd defaultTables w) = true ∧
    (∀ i, i < 39 → eccChk defaultTables (eccAdd defaultTables w ^^^ BitVec.twoPow 39 i) = false) ∧
    (∀ i j, i < j → j < 39 →
      eccChk defaultTables (eccAdd defaultTables w ^^^ BitVec.twoPow 39 i ^^^ BitVec.twoPow 39 j) = false)

/-- ECC.ADD and ECC.CHK as primitive calls return their value and change nothing else; the codeword's low 32 bits are the
word, each of its check bits the parity under its mask, inverted where HSIAO_INV says; a value is accepted exactly
when it is the codeword of its data (42_hsiao_secded.md R161 to R164). -/
def Obligations.EccCallsComplete : Prop :=
  ∀ (s : State) (word : Word) (value : Codeword), s.phase ≠ .failed →
    ∃ code : Codeword, exec (.eccAdd word) s = .next { s with responses := s.responses ++ [.codeword code] } ∧
      (∀ b, b < 32 → code.getLsbD b = (word.getLsbD b ^^ s.cfg.tables.hsiaoInv.getLsbD b)) ∧
      (∀ b : Fin 7, code.getLsbD (32 + b) =
        (parity (word &&& s.cfg.tables.hsiaoMasks[b]) ^^ s.cfg.tables.hsiaoInv.getLsbD (32 + b))) ∧
      ∃ ok : Bool, exec (.eccChk value) s = .next { s with responses := s.responses ++ [.check ok] } ∧
        (ok = true ↔ eccAdd s.cfg.tables (value.extractLsb' 0 32) = value)

/-! ### The whole machine -/

/-- Failed is terminal: after a fatal error, and in every other Failed state, every operation of every agent is refused. A
state that records a fatal error is a fault: with nothing pending a step faults with the record; it is never final, no
step rests on it; it is never cleared; and where the invariant holds no step at all leads on from it
(60_exceptions.md R250). -/
def Obligations.FailedIsTerminal : Prop :=
  (∀ (i : Instr) (s : State), s.phase = .failed → exec i s = .refused .afterFault) ∧
  (∀ (s : State) (code : FatalCode) (info : Nat),
    raiseFatal s code info = { s with fatal := some ⟨code, info⟩, phase := .failed } ∧
    ∀ i, exec i (raiseFatal s code info) = .refused .afterFault) ∧
  (∀ (s : State) (record : FatalRecord), s.fatal = some record → s.pending = [] → step s = .fault (.fatalError record)) ∧
  (∀ s : State, s.fatal ≠ none → step s ≠ .next s) ∧
  (∀ s t : State, s.fatal ≠ none → step s = .next t → t.fatal ≠ none) ∧
  (∀ s t : State, s.Inv → s.fatal ≠ none → step s ≠ .next t)

/-- A step moves the phase only from Idle to Loading by LOAD.BEGIN, from Loading to Loaded by LOAD.END, and from Idle or
Loading to Failed with a fatal error recorded (10_state.md R23). -/
def Obligations.PhaseTransitions : Prop :=
  ∀ (i : Instr) (s t : State), exec i s = .next t →
    t.phase = s.phase ∨
    (i = .loadBegin ∧ s.phase = .idle ∧ t.phase = .loading) ∨
    (i = .loadEnd ∧ s.phase = .loading ∧ t.phase = .loaded) ∨
    ((s.phase = .idle ∨ s.phase = .loading) ∧ t.phase = .failed ∧ t.fatal ≠ none)

/-- A step changes no argument of the model, drops no warning, alert event or response, and takes at most the oldest request
(10_state.md, opening, R33, R34; 00_scope.md R16; the fields are the model's, assumption log 1, 2, 4). -/
def Obligations.LogsOnlyGrow : Prop :=
  ∀ s t : State, step s = .next t →
    t.cfg = s.cfg ∧ t.pending = s.pending.tail ∧ s.alertEvents ≤ t.alertEvents ∧
    (∃ out, t.warnings = s.warnings ++ out) ∧ (∃ out, t.responses = s.responses ++ out)

/-- A step faults exactly where a fatal error is recorded and nothing is pending, with that record; so no operation, in any
state, makes a store write that is out of range (60_exceptions.md R250, 20_memory.md R53). -/
def Obligations.StepFaultsOnlyOnAFatalError : Prop :=
  ∀ (s : State) (f : Fault),
    step s = .fault f ↔ s.pending = [] ∧ ∃ record, s.fatal = some record ∧ f = .fatalError record

/-- The invariant holds in the state every construction gives (10_state.md R36, 60_exceptions.md R251). -/
def Obligations.InvariantHoldsAtConstruction : Prop :=
  (∀ c : Config, (State.construct c).Inv) ∧ State.reset.Inv

/-- Every step keeps the invariant: the store's canonical form and range, the number and size of the accumulator's
slots, the fatal record, the key and nonce set before a load, the derived nonce fields
(10_state.md R24 to R26, 20_memory.md R51, R53, 60_exceptions.md R250). -/
def Obligations.StepKeepsInvariant : Prop :=
  ∀ s t : State, s.Inv → step s = .next t → t.Inv
end

