-- ==== Sys2Proof/Laws/Bits.lean ====
section
/-! SUPPORT. What the bit and byte operators of Machine/Bits.lean do, said once. -/

namespace Sys2Proof.Machine

theorem natOfBits_lt (n : Nat) (f : Nat → Bool) : natOfBits n f < 2 ^ n := by
  induction n with
  | zero => simp [natOfBits]
  | succ n ih =>
    simp only [natOfBits, Nat.pow_succ]
    split <;> omega

theorem testBit_natOfBits (n : Nat) (f : Nat → Bool) (i : Nat) :
    (natOfBits n f).testBit i = (decide (i < n) && f i) := by
  induction n with
  | zero => simp [natOfBits]
  | succ n ih =>
    have hlt := natOfBits_lt n f
    have hsplit : natOfBits (n + 1) f = 2 ^ n * (f n).toNat + natOfBits n f := by
      cases h : f n <;> simp [natOfBits, h, Nat.add_comm]
    rw [hsplit, Nat.testBit_two_pow_mul_add _ hlt]
    by_cases hi : i < n
    · simp [hi, ih, Nat.lt_succ_of_lt hi]
    · by_cases he : i = n
      · subst he; cases f i <;> simp
      · have hgt : ¬ i < n + 1 := by omega
        obtain ⟨m, hm⟩ : ∃ m, i - n = m + 1 := ⟨i - n - 1, by omega⟩
        cases f n <;> simp [hi, hgt, hm, Nat.testBit_succ]

/-- The bits of `ofBits` are the function it is given. -/
@[simp] theorem getLsbD_ofBits (w : Nat) (f : Nat → Bool) (i : Nat) :
    (ofBits w f).getLsbD i = (decide (i < w) && f i) := by
  simp only [ofBits, BitVec.getLsbD_ofNat, testBit_natOfBits]
  cases decide (i < w) <;> simp

/-- A value is `ofBits` of its own bits. -/
theorem ofBits_getLsbD {w : Nat} (x : BitVec w) : ofBits w x.getLsbD = x := by
  apply BitVec.eq_of_getLsbD_eq
  intro i hi
  simp only [getLsbD_ofBits, hi, decide_true, Bool.true_and]

@[simp] theorem getLsbD_nib {w : Nat} (x : BitVec w) (j i : Nat) :
    (nib x j).getLsbD i = (decide (i < 4) && x.getLsbD (4 * j + i)) := by
  simp [nib]

@[simp] theorem getLsbD_ofNibbles (f : Nat → Nibble) (i : Nat) :
    (ofNibbles f).getLsbD i = (decide (i < 64) && (f (i / 4)).getLsbD (i % 4)) := by
  simp [ofNibbles]

/-- The nibbles of `ofNibbles` are the function it is given. -/
theorem nib_ofNibbles (f : Nat → Nibble) (j : Nat) (h : j < 16) : nib (ofNibbles f) j = f j := by
  apply BitVec.eq_of_getLsbD_eq
  intro i hi
  have h1 : 4 * j + i < 64 := by omega
  have h2 : (4 * j + i) / 4 = j := by omega
  have h3 : (4 * j + i) % 4 = i := by omega
  simp only [getLsbD_nib, getLsbD_ofNibbles, hi, h1, h2, h3, decide_true, Bool.true_and]

theorem getLsbD_subLayer {w : Nat} (t : Nibble → Nibble) (x : BitVec w) (i : Nat) :
    (subLayer t x).getLsbD i =
      (decide (i < w) && if i < 4 * (w / 4) then (t (nib x (i / 4))).getLsbD (i % 4) else x.getLsbD i) := by
  simp [subLayer]

/-- Whole nibbles go through the table. -/
theorem nib_subLayer {w : Nat} (t : Nibble → Nibble) (x : BitVec w) (j : Nat) (h : j < w / 4) :
    nib (subLayer t x) j = t (nib x j) := by
  apply BitVec.eq_of_getLsbD_eq
  intro i hi
  have h1 : 4 * j + i < w := by omega
  have h2 : 4 * j + i < 4 * (w / 4) := by omega
  have h3 : (4 * j + i) / 4 = j := by omega
  have h4 : (4 * j + i) % 4 = i := by omega
  simp only [getLsbD_nib, getLsbD_subLayer, hi, h1, h2, h3, h4, decide_true, Bool.true_and, if_true]

/-- Substituting by a table and then by its inverse is the identity (40_lightweight_block_cipher.md R102, R103). -/
theorem subLayer_subLayer {w : Nat} (t u : Nibble → Nibble) (h : ∀ n, u (t n) = n) (x : BitVec w) :
    subLayer u (subLayer t x) = x := by
  apply BitVec.eq_of_getLsbD_eq
  intro i hi
  rw [getLsbD_subLayer]
  by_cases hw : i < 4 * (w / 4)
  · have hj : i / 4 < w / 4 := by omega
    have h4 : i % 4 < 4 := by omega
    have hi' : 4 * (i / 4) + i % 4 = i := by omega
    simp only [hi, hw, nib_subLayer t x _ hj, h, getLsbD_nib, h4, hi', decide_true, Bool.true_and, if_true]
  · simp only [hi, hw, getLsbD_subLayer, decide_true, Bool.true_and, if_false]

@[simp] theorem length_leBytes (k v : Nat) : (leBytes k v).length = k := by
  induction k generalizing v with
  | zero => rfl
  | succ k ih => simp [leBytes, ih]

/-- Reading back little-endian bytes gives the value (00_scope.md R13). -/
theorem ofLeBytes_leBytes (k v : Nat) (h : v < 256 ^ k) : ofLeBytes (leBytes k v) = v := by
  induction k generalizing v with
  | zero => simp at h; simp [leBytes, ofLeBytes, h]
  | succ k ih =>
    have hv : v / 256 < 256 ^ k := by
      rw [Nat.div_lt_iff_lt_mul (by decide)]
      rwa [Nat.pow_succ] at h
    simp only [leBytes, ofLeBytes, ih _ hv, BitVec.toNat_ofNat]
    omega

theorem ofLeBytes_lt (bs : List Byte) : ofLeBytes bs < 256 ^ bs.length := by
  induction bs with
  | nil => simp [ofLeBytes]
  | cons b bs ih =>
    have hb := b.isLt
    simp only [ofLeBytes, List.length_cons, Nat.pow_succ]
    omega

@[simp] theorem length_bytesOf (o : ByteOrder) (k v : Nat) : (bytesOf o k v).length = k := by
  cases o <;> simp [bytesOf]

/-- `ofBytes` inverts `bytesOf` in either byte order. -/
theorem ofBytes_bytesOf (o : ByteOrder) (k v : Nat) (h : v < 256 ^ k) : ofBytes o (bytesOf o k v) = v := by
  cases o <;> simp [ofBytes, bytesOf, ofLeBytes_leBytes k v h]

end Sys2Proof.Machine
end

