-- ==== Sys2Proof/Laws/State.lean ====
section
/-! SUPPORT. One lemma per field per update of the state, so that no proof unfolds a record update. -/

namespace Sys2Proof.Machine

variable (s : State)

/-! ### withPending -/

@[simp] theorem withPending_cfg (rs : List Request) : (withPending s rs).cfg = s.cfg := rfl
@[simp] theorem withPending_phase (rs : List Request) : (withPending s rs).phase = s.phase := rfl
@[simp] theorem withPending_keySet (rs : List Request) : (withPending s rs).keySet = s.keySet := rfl
@[simp] theorem withPending_k0 (rs : List Request) : (withPending s rs).k0 = s.k0 := rfl
@[simp] theorem withPending_k1 (rs : List Request) : (withPending s rs).k1 = s.k1 := rfl
@[simp] theorem withPending_nonceSet (rs : List Request) : (withPending s rs).nonceSet = s.nonceSet := rfl
@[simp] theorem withPending_nonce (rs : List Request) : (withPending s rs).nonce = s.nonce := rfl
@[simp] theorem withPending_addrKey (rs : List Request) : (withPending s rs).addrKey = s.addrKey := rfl
@[simp] theorem withPending_dataNonce (rs : List Request) : (withPending s rs).dataNonce = s.dataNonce := rfl
@[simp] theorem withPending_acc (rs : List Request) : (withPending s rs).acc = s.acc := rfl
@[simp] theorem withPending_expected (rs : List Request) : (withPending s rs).expected = s.expected := rfl
@[simp] theorem withPending_observed (rs : List Request) : (withPending s rs).observed = s.observed := rfl
@[simp] theorem withPending_checkerError (rs : List Request) : (withPending s rs).checkerError = s.checkerError := rfl
@[simp] theorem withPending_integrityError (rs : List Request) : (withPending s rs).integrityError = s.integrityError := rfl
@[simp] theorem withPending_alertLatched (rs : List Request) : (withPending s rs).alertLatched = s.alertLatched := rfl
@[simp] theorem withPending_fatal (rs : List Request) : (withPending s rs).fatal = s.fatal := rfl
@[simp] theorem withPending_warnings (rs : List Request) : (withPending s rs).warnings = s.warnings := rfl
@[simp] theorem withPending_alertEvents (rs : List Request) : (withPending s rs).alertEvents = s.alertEvents := rfl
@[simp] theorem withPending_store (rs : List Request) : (withPending s rs).store = s.store := rfl
@[simp] theorem withPending_pending (rs : List Request) : (withPending s rs).pending = rs := rfl
@[simp] theorem withPending_responses (rs : List Request) : (withPending s rs).responses = s.responses := rfl

/-! ### withStore -/

@[simp] theorem withStore_cfg (m : Memory) : (withStore s m).cfg = s.cfg := rfl
@[simp] theorem withStore_phase (m : Memory) : (withStore s m).phase = s.phase := rfl
@[simp] theorem withStore_keySet (m : Memory) : (withStore s m).keySet = s.keySet := rfl
@[simp] theorem withStore_k0 (m : Memory) : (withStore s m).k0 = s.k0 := rfl
@[simp] theorem withStore_k1 (m : Memory) : (withStore s m).k1 = s.k1 := rfl
@[simp] theorem withStore_nonceSet (m : Memory) : (withStore s m).nonceSet = s.nonceSet := rfl
@[simp] theorem withStore_nonce (m : Memory) : (withStore s m).nonce = s.nonce := rfl
@[simp] theorem withStore_addrKey (m : Memory) : (withStore s m).addrKey = s.addrKey := rfl
@[simp] theorem withStore_dataNonce (m : Memory) : (withStore s m).dataNonce = s.dataNonce := rfl
@[simp] theorem withStore_acc (m : Memory) : (withStore s m).acc = s.acc := rfl
@[simp] theorem withStore_expected (m : Memory) : (withStore s m).expected = s.expected := rfl
@[simp] theorem withStore_observed (m : Memory) : (withStore s m).observed = s.observed := rfl
@[simp] theorem withStore_checkerError (m : Memory) : (withStore s m).checkerError = s.checkerError := rfl
@[simp] theorem withStore_integrityError (m : Memory) : (withStore s m).integrityError = s.integrityError := rfl
@[simp] theorem withStore_alertLatched (m : Memory) : (withStore s m).alertLatched = s.alertLatched := rfl
@[simp] theorem withStore_fatal (m : Memory) : (withStore s m).fatal = s.fatal := rfl
@[simp] theorem withStore_warnings (m : Memory) : (withStore s m).warnings = s.warnings := rfl
@[simp] theorem withStore_alertEvents (m : Memory) : (withStore s m).alertEvents = s.alertEvents := rfl
@[simp] theorem withStore_store (m : Memory) : (withStore s m).store = m := rfl
@[simp] theorem withStore_pending (m : Memory) : (withStore s m).pending = s.pending := rfl
@[simp] theorem withStore_responses (m : Memory) : (withStore s m).responses = s.responses := rfl

/-! ### respond -/

@[simp] theorem respond_cfg (r : Response) : (respond s r).cfg = s.cfg := rfl
@[simp] theorem respond_phase (r : Response) : (respond s r).phase = s.phase := rfl
@[simp] theorem respond_keySet (r : Response) : (respond s r).keySet = s.keySet := rfl
@[simp] theorem respond_k0 (r : Response) : (respond s r).k0 = s.k0 := rfl
@[simp] theorem respond_k1 (r : Response) : (respond s r).k1 = s.k1 := rfl
@[simp] theorem respond_nonceSet (r : Response) : (respond s r).nonceSet = s.nonceSet := rfl
@[simp] theorem respond_nonce (r : Response) : (respond s r).nonce = s.nonce := rfl
@[simp] theorem respond_addrKey (r : Response) : (respond s r).addrKey = s.addrKey := rfl
@[simp] theorem respond_dataNonce (r : Response) : (respond s r).dataNonce = s.dataNonce := rfl
@[simp] theorem respond_acc (r : Response) : (respond s r).acc = s.acc := rfl
@[simp] theorem respond_expected (r : Response) : (respond s r).expected = s.expected := rfl
@[simp] theorem respond_observed (r : Response) : (respond s r).observed = s.observed := rfl
@[simp] theorem respond_checkerError (r : Response) : (respond s r).checkerError = s.checkerError := rfl
@[simp] theorem respond_integrityError (r : Response) : (respond s r).integrityError = s.integrityError := rfl
@[simp] theorem respond_alertLatched (r : Response) : (respond s r).alertLatched = s.alertLatched := rfl
@[simp] theorem respond_fatal (r : Response) : (respond s r).fatal = s.fatal := rfl
@[simp] theorem respond_warnings (r : Response) : (respond s r).warnings = s.warnings := rfl
@[simp] theorem respond_alertEvents (r : Response) : (respond s r).alertEvents = s.alertEvents := rfl
@[simp] theorem respond_store (r : Response) : (respond s r).store = s.store := rfl
@[simp] theorem respond_pending (r : Response) : (respond s r).pending = s.pending := rfl
@[simp] theorem respond_responses (r : Response) : (respond s r).responses = s.responses ++ [r] := rfl

/-! ### raiseFatal -/

@[simp] theorem raiseFatal_cfg (code : FatalCode) (info : Nat) : (raiseFatal s code info).cfg = s.cfg := rfl
@[simp] theorem raiseFatal_phase (code : FatalCode) (info : Nat) : (raiseFatal s code info).phase = .failed := rfl
@[simp] theorem raiseFatal_keySet (code : FatalCode) (info : Nat) : (raiseFatal s code info).keySet = s.keySet := rfl
@[simp] theorem raiseFatal_k0 (code : FatalCode) (info : Nat) : (raiseFatal s code info).k0 = s.k0 := rfl
@[simp] theorem raiseFatal_k1 (code : FatalCode) (info : Nat) : (raiseFatal s code info).k1 = s.k1 := rfl
@[simp] theorem raiseFatal_nonceSet (code : FatalCode) (info : Nat) : (raiseFatal s code info).nonceSet = s.nonceSet := rfl
@[simp] theorem raiseFatal_nonce (code : FatalCode) (info : Nat) : (raiseFatal s code info).nonce = s.nonce := rfl
@[simp] theorem raiseFatal_addrKey (code : FatalCode) (info : Nat) : (raiseFatal s code info).addrKey = s.addrKey := rfl
@[simp] theorem raiseFatal_dataNonce (code : FatalCode) (info : Nat) : (raiseFatal s code info).dataNonce = s.dataNonce := rfl
@[simp] theorem raiseFatal_acc (code : FatalCode) (info : Nat) : (raiseFatal s code info).acc = s.acc := rfl
@[simp] theorem raiseFatal_expected (code : FatalCode) (info : Nat) : (raiseFatal s code info).expected = s.expected := rfl
@[simp] theorem raiseFatal_observed (code : FatalCode) (info : Nat) : (raiseFatal s code info).observed = s.observed := rfl
@[simp] theorem raiseFatal_checkerError (code : FatalCode) (info : Nat) : (raiseFatal s code info).checkerError = s.checkerError := rfl
@[simp] theorem raiseFatal_integrityError (code : FatalCode) (info : Nat) : (raiseFatal s code info).integrityError = s.integrityError := rfl
@[simp] theorem raiseFatal_alertLatched (code : FatalCode) (info : Nat) : (raiseFatal s code info).alertLatched = s.alertLatched := rfl
@[simp] theorem raiseFatal_fatal (code : FatalCode) (info : Nat) : (raiseFatal s code info).fatal = some ⟨code, info⟩ := rfl
@[simp] theorem raiseFatal_warnings (code : FatalCode) (info : Nat) : (raiseFatal s code info).warnings = s.warnings := rfl
@[simp] theorem raiseFatal_alertEvents (code : FatalCode) (info : Nat) : (raiseFatal s code info).alertEvents = s.alertEvents := rfl
@[simp] theorem raiseFatal_store (code : FatalCode) (info : Nat) : (raiseFatal s code info).store = s.store := rfl
@[simp] theorem raiseFatal_pending (code : FatalCode) (info : Nat) : (raiseFatal s code info).pending = s.pending := rfl
@[simp] theorem raiseFatal_responses (code : FatalCode) (info : Nat) : (raiseFatal s code info).responses = s.responses := rfl

/-! ### warn -/

@[simp] theorem warn_cfg (code : WarningCode) (info : Nat) : (warn s code info).cfg = s.cfg := rfl
@[simp] theorem warn_phase (code : WarningCode) (info : Nat) : (warn s code info).phase = s.phase := rfl
@[simp] theorem warn_keySet (code : WarningCode) (info : Nat) : (warn s code info).keySet = s.keySet := rfl
@[simp] theorem warn_k0 (code : WarningCode) (info : Nat) : (warn s code info).k0 = s.k0 := rfl
@[simp] theorem warn_k1 (code : WarningCode) (info : Nat) : (warn s code info).k1 = s.k1 := rfl
@[simp] theorem warn_nonceSet (code : WarningCode) (info : Nat) : (warn s code info).nonceSet = s.nonceSet := rfl
@[simp] theorem warn_nonce (code : WarningCode) (info : Nat) : (warn s code info).nonce = s.nonce := rfl
@[simp] theorem warn_addrKey (code : WarningCode) (info : Nat) : (warn s code info).addrKey = s.addrKey := rfl
@[simp] theorem warn_dataNonce (code : WarningCode) (info : Nat) : (warn s code info).dataNonce = s.dataNonce := rfl
@[simp] theorem warn_acc (code : WarningCode) (info : Nat) : (warn s code info).acc = s.acc := rfl
@[simp] theorem warn_expected (code : WarningCode) (info : Nat) : (warn s code info).expected = s.expected := rfl
@[simp] theorem warn_observed (code : WarningCode) (info : Nat) : (warn s code info).observed = s.observed := rfl
@[simp] theorem warn_checkerError (code : WarningCode) (info : Nat) : (warn s code info).checkerError = s.checkerError := rfl
@[simp] theorem warn_integrityError (code : WarningCode) (info : Nat) : (warn s code info).integrityError = s.integrityError := rfl
@[simp] theorem warn_alertLatched (code : WarningCode) (info : Nat) : (warn s code info).alertLatched = s.alertLatched := rfl
@[simp] theorem warn_fatal (code : WarningCode) (info : Nat) : (warn s code info).fatal = s.fatal := rfl
@[simp] theorem warn_warnings (code : WarningCode) (info : Nat) : (warn s code info).warnings = s.warnings ++ [⟨code, info⟩] := rfl
@[simp] theorem warn_alertEvents (code : WarningCode) (info : Nat) : (warn s code info).alertEvents = s.alertEvents := rfl
@[simp] theorem warn_store (code : WarningCode) (info : Nat) : (warn s code info).store = s.store := rfl
@[simp] theorem warn_pending (code : WarningCode) (info : Nat) : (warn s code info).pending = s.pending := rfl
@[simp] theorem warn_responses (code : WarningCode) (info : Nat) : (warn s code info).responses = s.responses := rfl

/-! ### emitAlert -/

@[simp] theorem emitAlert_cfg : (emitAlert s).cfg = s.cfg := rfl
@[simp] theorem emitAlert_phase : (emitAlert s).phase = s.phase := rfl
@[simp] theorem emitAlert_keySet : (emitAlert s).keySet = s.keySet := rfl
@[simp] theorem emitAlert_k0 : (emitAlert s).k0 = s.k0 := rfl
@[simp] theorem emitAlert_k1 : (emitAlert s).k1 = s.k1 := rfl
@[simp] theorem emitAlert_nonceSet : (emitAlert s).nonceSet = s.nonceSet := rfl
@[simp] theorem emitAlert_nonce : (emitAlert s).nonce = s.nonce := rfl
@[simp] theorem emitAlert_addrKey : (emitAlert s).addrKey = s.addrKey := rfl
@[simp] theorem emitAlert_dataNonce : (emitAlert s).dataNonce = s.dataNonce := rfl
@[simp] theorem emitAlert_acc : (emitAlert s).acc = s.acc := rfl
@[simp] theorem emitAlert_expected : (emitAlert s).expected = s.expected := rfl
@[simp] theorem emitAlert_observed : (emitAlert s).observed = s.observed := rfl
@[simp] theorem emitAlert_checkerError : (emitAlert s).checkerError = s.checkerError := rfl
@[simp] theorem emitAlert_integrityError : (emitAlert s).integrityError = s.integrityError := rfl
@[simp] theorem emitAlert_alertLatched : (emitAlert s).alertLatched = s.alertLatched := rfl
@[simp] theorem emitAlert_fatal : (emitAlert s).fatal = s.fatal := rfl
@[simp] theorem emitAlert_warnings : (emitAlert s).warnings = s.warnings := rfl
@[simp] theorem emitAlert_alertEvents : (emitAlert s).alertEvents = s.alertEvents + 1 := rfl
@[simp] theorem emitAlert_store : (emitAlert s).store = s.store := rfl
@[simp] theorem emitAlert_pending : (emitAlert s).pending = s.pending := rfl
@[simp] theorem emitAlert_responses : (emitAlert s).responses = s.responses := rfl

/-! ### setKeyRegs -/

@[simp] theorem setKeyRegs_cfg (a b : DWord) : (setKeyRegs s a b).cfg = s.cfg := rfl
@[simp] theorem setKeyRegs_phase (a b : DWord) : (setKeyRegs s a b).phase = s.phase := rfl
@[simp] theorem setKeyRegs_keySet (a b : DWord) : (setKeyRegs s a b).keySet = true := rfl
@[simp] theorem setKeyRegs_k0 (a b : DWord) : (setKeyRegs s a b).k0 = a := rfl
@[simp] theorem setKeyRegs_k1 (a b : DWord) : (setKeyRegs s a b).k1 = b := rfl
@[simp] theorem setKeyRegs_nonceSet (a b : DWord) : (setKeyRegs s a b).nonceSet = s.nonceSet := rfl
@[simp] theorem setKeyRegs_nonce (a b : DWord) : (setKeyRegs s a b).nonce = s.nonce := rfl
@[simp] theorem setKeyRegs_addrKey (a b : DWord) : (setKeyRegs s a b).addrKey = s.addrKey := rfl
@[simp] theorem setKeyRegs_dataNonce (a b : DWord) : (setKeyRegs s a b).dataNonce = s.dataNonce := rfl
@[simp] theorem setKeyRegs_acc (a b : DWord) : (setKeyRegs s a b).acc = s.acc := rfl
@[simp] theorem setKeyRegs_expected (a b : DWord) : (setKeyRegs s a b).expected = s.expected := rfl
@[simp] theorem setKeyRegs_observed (a b : DWord) : (setKeyRegs s a b).observed = s.observed := rfl
@[simp] theorem setKeyRegs_checkerError (a b : DWord) : (setKeyRegs s a b).checkerError = s.checkerError := rfl
@[simp] theorem setKeyRegs_integrityError (a b : DWord) : (setKeyRegs s a b).integrityError = s.integrityError := rfl
@[simp] theorem setKeyRegs_alertLatched (a b : DWord) : (setKeyRegs s a b).alertLatched = s.alertLatched := rfl
@[simp] theorem setKeyRegs_fatal (a b : DWord) : (setKeyRegs s a b).fatal = s.fatal := rfl
@[simp] theorem setKeyRegs_warnings (a b : DWord) : (setKeyRegs s a b).warnings = s.warnings := rfl
@[simp] theorem setKeyRegs_alertEvents (a b : DWord) : (setKeyRegs s a b).alertEvents = s.alertEvents := rfl
@[simp] theorem setKeyRegs_store (a b : DWord) : (setKeyRegs s a b).store = s.store := rfl
@[simp] theorem setKeyRegs_pending (a b : DWord) : (setKeyRegs s a b).pending = s.pending := rfl
@[simp] theorem setKeyRegs_responses (a b : DWord) : (setKeyRegs s a b).responses = s.responses := rfl

/-! ### setNonceRegs -/

@[simp] theorem setNonceRegs_cfg (a b c : DWord) : (setNonceRegs s a b c).cfg = s.cfg := rfl
@[simp] theorem setNonceRegs_phase (a b c : DWord) : (setNonceRegs s a b c).phase = s.phase := rfl
@[simp] theorem setNonceRegs_keySet (a b c : DWord) : (setNonceRegs s a b c).keySet = s.keySet := rfl
@[simp] theorem setNonceRegs_k0 (a b c : DWord) : (setNonceRegs s a b c).k0 = s.k0 := rfl
@[simp] theorem setNonceRegs_k1 (a b c : DWord) : (setNonceRegs s a b c).k1 = s.k1 := rfl
@[simp] theorem setNonceRegs_nonceSet (a b c : DWord) : (setNonceRegs s a b c).nonceSet = true := rfl
@[simp] theorem setNonceRegs_nonce (a b c : DWord) : (setNonceRegs s a b c).nonce = a := rfl
@[simp] theorem setNonceRegs_addrKey (a b c : DWord) : (setNonceRegs s a b c).addrKey = b := rfl
@[simp] theorem setNonceRegs_dataNonce (a b c : DWord) : (setNonceRegs s a b c).dataNonce = c := rfl
@[simp] theorem setNonceRegs_acc (a b c : DWord) : (setNonceRegs s a b c).acc = s.acc := rfl
@[simp] theorem setNonceRegs_expected (a b c : DWord) : (setNonceRegs s a b c).expected = s.expected := rfl
@[simp] theorem setNonceRegs_observed (a b c : DWord) : (setNonceRegs s a b c).observed = s.observed := rfl
@[simp] theorem setNonceRegs_checkerError (a b c : DWord) : (setNonceRegs s a b c).checkerError = s.checkerError := rfl
@[simp] theorem setNonceRegs_integrityError (a b c : DWord) : (setNonceRegs s a b c).integrityError = s.integrityError := rfl
@[simp] theorem setNonceRegs_alertLatched (a b c : DWord) : (setNonceRegs s a b c).alertLatched = s.alertLatched := rfl
@[simp] theorem setNonceRegs_fatal (a b c : DWord) : (setNonceRegs s a b c).fatal = s.fatal := rfl
@[simp] theorem setNonceRegs_warnings (a b c : DWord) : (setNonceRegs s a b c).warnings = s.warnings := rfl
@[simp] theorem setNonceRegs_alertEvents (a b c : DWord) : (setNonceRegs s a b c).alertEvents = s.alertEvents := rfl
@[simp] theorem setNonceRegs_store (a b c : DWord) : (setNonceRegs s a b c).store = s.store := rfl
@[simp] theorem setNonceRegs_pending (a b c : DWord) : (setNonceRegs s a b c).pending = s.pending := rfl
@[simp] theorem setNonceRegs_responses (a b c : DWord) : (setNonceRegs s a b c).responses = s.responses := rfl

/-! ### beginLoad -/

@[simp] theorem beginLoad_cfg : (beginLoad s).cfg = s.cfg := rfl
@[simp] theorem beginLoad_phase : (beginLoad s).phase = .loading := rfl
@[simp] theorem beginLoad_keySet : (beginLoad s).keySet = s.keySet := rfl
@[simp] theorem beginLoad_k0 : (beginLoad s).k0 = s.k0 := rfl
@[simp] theorem beginLoad_k1 : (beginLoad s).k1 = s.k1 := rfl
@[simp] theorem beginLoad_nonceSet : (beginLoad s).nonceSet = s.nonceSet := rfl
@[simp] theorem beginLoad_nonce : (beginLoad s).nonce = s.nonce := rfl
@[simp] theorem beginLoad_addrKey : (beginLoad s).addrKey = s.addrKey := rfl
@[simp] theorem beginLoad_dataNonce : (beginLoad s).dataNonce = s.dataNonce := rfl
@[simp] theorem beginLoad_acc : (beginLoad s).acc = List.replicate (payloadWords s.cfg) 0 := rfl
@[simp] theorem beginLoad_expected : (beginLoad s).expected = Vector.replicate 8 0 := rfl
@[simp] theorem beginLoad_observed : (beginLoad s).observed = s.observed := rfl
@[simp] theorem beginLoad_checkerError : (beginLoad s).checkerError = s.checkerError := rfl
@[simp] theorem beginLoad_integrityError : (beginLoad s).integrityError = s.integrityError := rfl
@[simp] theorem beginLoad_alertLatched : (beginLoad s).alertLatched = s.alertLatched := rfl
@[simp] theorem beginLoad_fatal : (beginLoad s).fatal = s.fatal := rfl
@[simp] theorem beginLoad_warnings : (beginLoad s).warnings = s.warnings := rfl
@[simp] theorem beginLoad_alertEvents : (beginLoad s).alertEvents = s.alertEvents := rfl
@[simp] theorem beginLoad_store : (beginLoad s).store = s.store := rfl
@[simp] theorem beginLoad_pending : (beginLoad s).pending = s.pending := rfl
@[simp] theorem beginLoad_responses : (beginLoad s).responses = s.responses := rfl

/-! ### endLoad -/

@[simp] theorem endLoad_cfg (v : Vector Word 8) (b : Bool) : (endLoad s v b).cfg = s.cfg := rfl
@[simp] theorem endLoad_phase (v : Vector Word 8) (b : Bool) : (endLoad s v b).phase = .loaded := rfl
@[simp] theorem endLoad_keySet (v : Vector Word 8) (b : Bool) : (endLoad s v b).keySet = s.keySet := rfl
@[simp] theorem endLoad_k0 (v : Vector Word 8) (b : Bool) : (endLoad s v b).k0 = s.k0 := rfl
@[simp] theorem endLoad_k1 (v : Vector Word 8) (b : Bool) : (endLoad s v b).k1 = s.k1 := rfl
@[simp] theorem endLoad_nonceSet (v : Vector Word 8) (b : Bool) : (endLoad s v b).nonceSet = s.nonceSet := rfl
@[simp] theorem endLoad_nonce (v : Vector Word 8) (b : Bool) : (endLoad s v b).nonce = s.nonce := rfl
@[simp] theorem endLoad_addrKey (v : Vector Word 8) (b : Bool) : (endLoad s v b).addrKey = s.addrKey := rfl
@[simp] theorem endLoad_dataNonce (v : Vector Word 8) (b : Bool) : (endLoad s v b).dataNonce = s.dataNonce := rfl
@[simp] theorem endLoad_acc (v : Vector Word 8) (b : Bool) : (endLoad s v b).acc = s.acc := rfl
@[simp] theorem endLoad_expected (v : Vector Word 8) (b : Bool) : (endLoad s v b).expected = s.expected := rfl
@[simp] theorem endLoad_observed (v : Vector Word 8) (b : Bool) : (endLoad s v b).observed = v := rfl
@[simp] theorem endLoad_checkerError (v : Vector Word 8) (b : Bool) : (endLoad s v b).checkerError = s.checkerError := rfl
@[simp] theorem endLoad_integrityError (v : Vector Word 8) (b : Bool) : (endLoad s v b).integrityError = b := rfl
@[simp] theorem endLoad_alertLatched (v : Vector Word 8) (b : Bool) : (endLoad s v b).alertLatched = s.alertLatched := rfl
@[simp] theorem endLoad_fatal (v : Vector Word 8) (b : Bool) : (endLoad s v b).fatal = s.fatal := rfl
@[simp] theorem endLoad_warnings (v : Vector Word 8) (b : Bool) : (endLoad s v b).warnings = s.warnings := rfl
@[simp] theorem endLoad_alertEvents (v : Vector Word 8) (b : Bool) : (endLoad s v b).alertEvents = s.alertEvents := rfl
@[simp] theorem endLoad_store (v : Vector Word 8) (b : Bool) : (endLoad s v b).store = s.store := rfl
@[simp] theorem endLoad_pending (v : Vector Word 8) (b : Bool) : (endLoad s v b).pending = s.pending := rfl
@[simp] theorem endLoad_responses (v : Vector Word 8) (b : Bool) : (endLoad s v b).responses = s.responses := rfl

/-! ### setAlertFlags -/

@[simp] theorem setAlertFlags_cfg : (setAlertFlags s).cfg = s.cfg := rfl
@[simp] theorem setAlertFlags_phase : (setAlertFlags s).phase = s.phase := rfl
@[simp] theorem setAlertFlags_keySet : (setAlertFlags s).keySet = s.keySet := rfl
@[simp] theorem setAlertFlags_k0 : (setAlertFlags s).k0 = s.k0 := rfl
@[simp] theorem setAlertFlags_k1 : (setAlertFlags s).k1 = s.k1 := rfl
@[simp] theorem setAlertFlags_nonceSet : (setAlertFlags s).nonceSet = s.nonceSet := rfl
@[simp] theorem setAlertFlags_nonce : (setAlertFlags s).nonce = s.nonce := rfl
@[simp] theorem setAlertFlags_addrKey : (setAlertFlags s).addrKey = s.addrKey := rfl
@[simp] theorem setAlertFlags_dataNonce : (setAlertFlags s).dataNonce = s.dataNonce := rfl
@[simp] theorem setAlertFlags_acc : (setAlertFlags s).acc = s.acc := rfl
@[simp] theorem setAlertFlags_expected : (setAlertFlags s).expected = s.expected := rfl
@[simp] theorem setAlertFlags_observed : (setAlertFlags s).observed = s.observed := rfl
@[simp] theorem setAlertFlags_checkerError : (setAlertFlags s).checkerError = true := rfl
@[simp] theorem setAlertFlags_integrityError : (setAlertFlags s).integrityError = true := rfl
@[simp] theorem setAlertFlags_alertLatched : (setAlertFlags s).alertLatched = true := rfl
@[simp] theorem setAlertFlags_fatal : (setAlertFlags s).fatal = s.fatal := rfl
@[simp] theorem setAlertFlags_warnings : (setAlertFlags s).warnings = s.warnings := rfl
@[simp] theorem setAlertFlags_alertEvents : (setAlertFlags s).alertEvents = s.alertEvents := rfl
@[simp] theorem setAlertFlags_store : (setAlertFlags s).store = s.store := rfl
@[simp] theorem setAlertFlags_pending : (setAlertFlags s).pending = s.pending := rfl
@[simp] theorem setAlertFlags_responses : (setAlertFlags s).responses = s.responses := rfl

/-! ### resetFlags -/

@[simp] theorem resetFlags_cfg (b : Bool) : (resetFlags s b).cfg = s.cfg := rfl
@[simp] theorem resetFlags_phase (b : Bool) : (resetFlags s b).phase = s.phase := rfl
@[simp] theorem resetFlags_keySet (b : Bool) : (resetFlags s b).keySet = s.keySet := rfl
@[simp] theorem resetFlags_k0 (b : Bool) : (resetFlags s b).k0 = s.k0 := rfl
@[simp] theorem resetFlags_k1 (b : Bool) : (resetFlags s b).k1 = s.k1 := rfl
@[simp] theorem resetFlags_nonceSet (b : Bool) : (resetFlags s b).nonceSet = s.nonceSet := rfl
@[simp] theorem resetFlags_nonce (b : Bool) : (resetFlags s b).nonce = s.nonce := rfl
@[simp] theorem resetFlags_addrKey (b : Bool) : (resetFlags s b).addrKey = s.addrKey := rfl
@[simp] theorem resetFlags_dataNonce (b : Bool) : (resetFlags s b).dataNonce = s.dataNonce := rfl
@[simp] theorem resetFlags_acc (b : Bool) : (resetFlags s b).acc = s.acc := rfl
@[simp] theorem resetFlags_expected (b : Bool) : (resetFlags s b).expected = s.expected := rfl
@[simp] theorem resetFlags_observed (b : Bool) : (resetFlags s b).observed = s.observed := rfl
@[simp] theorem resetFlags_checkerError (b : Bool) : (resetFlags s b).checkerError = false := rfl
@[simp] theorem resetFlags_integrityError (b : Bool) : (resetFlags s b).integrityError = b := rfl
@[simp] theorem resetFlags_alertLatched (b : Bool) : (resetFlags s b).alertLatched = false := rfl
@[simp] theorem resetFlags_fatal (b : Bool) : (resetFlags s b).fatal = s.fatal := rfl
@[simp] theorem resetFlags_warnings (b : Bool) : (resetFlags s b).warnings = s.warnings := rfl
@[simp] theorem resetFlags_alertEvents (b : Bool) : (resetFlags s b).alertEvents = s.alertEvents := rfl
@[simp] theorem resetFlags_store (b : Bool) : (resetFlags s b).store = s.store := rfl
@[simp] theorem resetFlags_pending (b : Bool) : (resetFlags s b).pending = s.pending := rfl
@[simp] theorem resetFlags_responses (b : Bool) : (resetFlags s b).responses = s.responses := rfl

/-! ### recordPayload -/

@[simp] theorem recordPayload_cfg (idx : Nat) (p : DWord) : (recordPayload s idx p).cfg = s.cfg := by
  unfold recordPayload; split <;> rfl
@[simp] theorem recordPayload_phase (idx : Nat) (p : DWord) : (recordPayload s idx p).phase = s.phase := by
  unfold recordPayload; split <;> rfl
@[simp] theorem recordPayload_keySet (idx : Nat) (p : DWord) : (recordPayload s idx p).keySet = s.keySet := by
  unfold recordPayload; split <;> rfl
@[simp] theorem recordPayload_k0 (idx : Nat) (p : DWord) : (recordPayload s idx p).k0 = s.k0 := by
  unfold recordPayload; split <;> rfl
@[simp] theorem recordPayload_k1 (idx : Nat) (p : DWord) : (recordPayload s idx p).k1 = s.k1 := by
  unfold recordPayload; split <;> rfl
@[simp] theorem recordPayload_nonceSet (idx : Nat) (p : DWord) : (recordPayload s idx p).nonceSet = s.nonceSet := by
  unfold recordPayload; split <;> rfl
@[simp] theorem recordPayload_nonce (idx : Nat) (p : DWord) : (recordPayload s idx p).nonce = s.nonce := by
  unfold recordPayload; split <;> rfl
@[simp] theorem recordPayload_addrKey (idx : Nat) (p : DWord) : (recordPayload s idx p).addrKey = s.addrKey := by
  unfold recordPayload; split <;> rfl
@[simp] theorem recordPayload_dataNonce (idx : Nat) (p : DWord) : (recordPayload s idx p).dataNonce = s.dataNonce := by
  unfold recordPayload; split <;> rfl
@[simp] theorem recordPayload_observed (idx : Nat) (p : DWord) : (recordPayload s idx p).observed = s.observed := by
  unfold recordPayload; split <;> rfl
@[simp] theorem recordPayload_checkerError (idx : Nat) (p : DWord) : (recordPayload s idx p).checkerError = s.checkerError := by
  unfold recordPayload; split <;> rfl
@[simp] theorem recordPayload_integrityError (idx : Nat) (p : DWord) : (recordPayload s idx p).integrityError = s.integrityError := by
  unfold recordPayload; split <;> rfl
@[simp] theorem recordPayload_alertLatched (idx : Nat) (p : DWord) : (recordPayload s idx p).alertLatched = s.alertLatched := by
  unfold recordPayload; split <;> rfl
@[simp] theorem recordPayload_fatal (idx : Nat) (p : DWord) : (recordPayload s idx p).fatal = s.fatal := by
  unfold recordPayload; split <;> rfl
@[simp] theorem recordPayload_warnings (idx : Nat) (p : DWord) : (recordPayload s idx p).warnings = s.warnings := by
  unfold recordPayload; split <;> rfl
@[simp] theorem recordPayload_alertEvents (idx : Nat) (p : DWord) : (recordPayload s idx p).alertEvents = s.alertEvents := by
  unfold recordPayload; split <;> rfl
@[simp] theorem recordPayload_store (idx : Nat) (p : DWord) : (recordPayload s idx p).store = s.store := by
  unfold recordPayload; split <;> rfl
@[simp] theorem recordPayload_pending (idx : Nat) (p : DWord) : (recordPayload s idx p).pending = s.pending := by
  unfold recordPayload; split <;> rfl
@[simp] theorem recordPayload_responses (idx : Nat) (p : DWord) : (recordPayload s idx p).responses = s.responses := by
  unfold recordPayload; split <;> rfl

/-- A digest-region payload leaves the accumulator, any other goes into its slot (43_descrambling_pipeline.md R189). -/
theorem recordPayload_acc (idx : Nat) (p : DWord) :
    (recordPayload s idx p).acc = if reserved s.cfg idx then s.acc else s.acc.set idx p := by
  unfold recordPayload; split <;> rfl

/-- A digest-region payload's low 32 bits go into its expected word (43_descrambling_pipeline.md R189). -/
theorem recordPayload_expected (idx : Nat) (p : DWord) :
    (recordPayload s idx p).expected =
      if reserved s.cfg idx then
        s.expected.setIfInBounds (idx - (romWords s.cfg - digestWords)) (p.extractLsb' 0 32)
      else s.expected := by
  unfold recordPayload; split <;> rfl

end Sys2Proof.Machine
end

