-- ==== Sys2Proof/Laws/Ops.lean ====
section
/-! SUPPORT. What each shared operation can do, said once: where it answers a next state and which. -/

namespace Sys2Proof.Machine

/-! ### Serving a request -/

theorem nextRequest_nil {s : State} (h : s.pending = []) : nextRequest s = none := by simp [nextRequest, h]

theorem nextRequest_cons {s : State} {r : Request} {rest : List Request} (h : s.pending = r :: rest) :
    nextRequest s = some (r, withPending s rest) := by simp [nextRequest, h]

/-! ### Nothing pending -/

theorem idleStep_none {s : State} (h : s.fatal = none) : idleStep s = .next s := by simp [idleStep, h]

theorem idleStep_some {s : State} {r : FatalRecord} (h : s.fatal = some r) : idleStep s = .fault (.fatalError r) := by
  simp [idleStep, h]

theorem idleStep_next {s t : State} (h : idleStep s = .next t) : s.fatal = none ∧ t = s := by
  unfold idleStep at h
  split at h <;> simp_all

/-! ### Admission -/

variable {s t : State} {k : State → StepResult}

theorem admitBus_admitted (h : s.phase = .idle ∨ s.phase = .loaded) : admitBus s k = k s := by
  rcases h with h | h <;> simp [admitBus, h]

theorem admitBus_loading (h : s.phase = .loading) : admitBus s k = .refused .busDuringLoad := by simp [admitBus, h]

theorem admitBus_failed (h : s.phase = .failed) : admitBus s k = .refused .afterFault := by simp [admitBus, h]

theorem admitBus_next (h : admitBus s k = .next t) : (s.phase = .idle ∨ s.phase = .loaded) ∧ k s = .next t := by
  unfold admitBus at h
  split at h <;> simp_all

theorem admitConfig_admitted {b : Bool} (h : s.phase = .idle) (hb : b = false) : admitConfig s b k = k s := by
  simp [admitConfig, h, hb]

theorem admitConfig_next {b : Bool} (h : admitConfig s b k = .next t) :
    s.phase = .idle ∧ b = false ∧ k s = .next t := by
  unfold admitConfig at h
  split at h <;> simp_all
  split at h <;> simp_all

theorem admitBegin_admitted (h : s.phase = .idle) (hk : s.keySet = true) (hn : s.nonceSet = true) :
    admitBegin s k = k s := by simp [admitBegin, h, hk, hn]

theorem admitBegin_next (h : admitBegin s k = .next t) :
    s.phase = .idle ∧ s.keySet = true ∧ s.nonceSet = true ∧ k s = .next t := by
  unfold admitBegin at h
  split at h <;> simp_all
  split at h <;> simp_all

theorem admitLoading_admitted (h : s.phase = .loading) : admitLoading s k = k s := by simp [admitLoading, h]

theorem admitLoading_next (h : admitLoading s k = .next t) : s.phase = .loading ∧ k s = .next t := by
  unfold admitLoading at h
  split at h <;> simp_all

theorem admitReset_admitted (h : s.phase = .idle ∨ s.phase = .loaded) : admitReset s k = k s := by
  rcases h with h | h <;> simp [admitReset, h]

theorem admitReset_next (h : admitReset s k = .next t) :
    (s.phase = .idle ∨ s.phase = .loaded) ∧ k s = .next t := by
  unfold admitReset at h
  split at h <;> simp_all

theorem admitPrim_admitted (h : s.phase ≠ .failed) : admitPrim s k = k s := by
  unfold admitPrim
  split <;> simp_all

theorem admitPrim_next (h : admitPrim s k = .next t) : s.phase ≠ .failed ∧ k s = .next t := by
  unfold admitPrim at h
  split at h <;> simp_all

/-- A request that is no operation is never served. -/
theorem refuseUndecoded_refuses (e : DecodeError) (s : State) : ∃ r, refuseUndecoded e s = .refused r := by
  cases e with
  | unknownOperation => exact ⟨_, rfl⟩
  | narrowAccess =>
    unfold refuseUndecoded admitBus
    cases s.phase <;> cases s.cfg.busNarrow <;> exact ⟨_, rfl⟩

/-! ### The backing store -/

theorem memWrite_inside {addr : Nat} {v : Word} (h : addr + 4 ≤ s.cfg.romBytes) :
    memWrite s addr v = .next (withStore s (s.store.writeBytes addr (storeBytes s.cfg v))) := by
  simp [memWrite, h]

theorem memWrite_next {addr : Nat} {v : Word} (h : memWrite s addr v = .next t) :
    addr + 4 ≤ s.cfg.romBytes ∧ t = withStore s (s.store.writeBytes addr (storeBytes s.cfg v)) := by
  unfold memWrite at h
  split at h <;> simp_all

@[simp] theorem length_storeBytes (c : Config) (v : Word) : (storeBytes c v).length = 4 := by simp [storeBytes]

/-! ### Primitive results -/

theorem answerLbc_next {r : LbcResult} (h : answerLbc s r = .next t) : ∃ a, t = respond s a := by
  cases r <;> simp [answerLbc] at h <;> exact ⟨_, h.symm⟩

/-! ### The load -/

/-- The state steps 3, 4 and 8 of LOAD.WORD leave, before the store is written. -/
theorem checkDecoded_cases (s : State) (idx : Nat) (plain : Codeword) :
    checkDecoded s idx plain = s ∨ checkDecoded s idx plain = warn s .ecc idx := by
  unfold checkDecoded
  split <;> simp

/-- What LOAD.WORD can do once its index is known (43_descrambling_pipeline.md R189, R190). -/
theorem loadAt_next {idx : Nat} {spay : DWord} (h : loadAt s idx spay = .next t) :
    (decodePayload (recordPayload s idx spay) idx spay = none ∧
      t = raiseFatal (recordPayload s idx spay) .payloadWidth spay.toNat) ∨
    ∃ plain, decodePayload (recordPayload s idx spay) idx spay = some plain ∧ idx * 4 + 4 ≤ s.cfg.romBytes ∧
      t = withStore (checkDecoded (recordPayload s idx spay) idx plain)
        (s.store.writeBytes (idx * 4) (storeBytes s.cfg (plain.extractLsb' 0 32))) := by
  unfold loadAt at h
  dsimp only at h
  split at h
  · rename_i hd
    exact .inl ⟨hd, by simpa using h.symm⟩
  · rename_i plain hd
    obtain ⟨h1, h2⟩ := memWrite_next h
    refine .inr ⟨plain, hd, ?_, ?_⟩ <;>
      rcases checkDecoded_cases (recordPayload s idx spay) idx plain with hc | hc <;>
      simp [hc] at h1 h2 ⊢ <;> assumption

/-- What LOAD.WORD can do (43_descrambling_pipeline.md R187 to R190). -/
theorem execLoadWord_next {sidx : Word} {spay : DWord} (h : execLoadWord sidx spay s = .next t) :
    s.phase = .loading ∧
    ((∃ code info, logicalIndex s sidx = .fatal code info ∧ t = raiseFatal s code info) ∨
      ∃ idx, logicalIndex s sidx = .index idx ∧ loadAt s idx spay = .next t) := by
  obtain ⟨hp, h⟩ := admitLoading_next h
  refine ⟨hp, ?_⟩
  split at h
  · rename_i code info hi
    exact .inl ⟨code, info, hi, by simpa using h.symm⟩
  · exact absurd h (by simp)
  · rename_i idx hi
    exact .inr ⟨idx, hi, h⟩

/-! ### The registers -/

theorem busRead_admitted {v : State → Word} (h : s.phase = .idle ∨ s.phase = .loaded) :
    busRead s v = .next (respond s (.rdata (v s))) := admitBus_admitted h

theorem busRead_next {v : State → Word} (h : busRead s v = .next t) :
    (s.phase = .idle ∨ s.phase = .loaded) ∧ t = respond s (.rdata (v s)) := by
  obtain ⟨hp, h⟩ := admitBus_next h
  exact ⟨hp, by simpa using h.symm⟩

theorem busIgnore_admitted (h : s.phase = .idle ∨ s.phase = .loaded) : busIgnore s = .next s := admitBus_admitted h

theorem busIgnore_next (h : busIgnore s = .next t) : (s.phase = .idle ∨ s.phase = .loaded) ∧ t = s := by
  obtain ⟨hp, h⟩ := admitBus_next h
  exact ⟨hp, by simpa using h.symm⟩

/-- The fields an alert test leaves alone (44_register_interface.md R211). -/
theorem alertTest_eq (s : State) :
    alertTest s = { s with
      checkerError := true
      integrityError := true
      alertLatched := true
      alertEvents := if s.cfg.alertRetrigger || !s.alertLatched then s.alertEvents + 1 else s.alertEvents } := by
  unfold alertTest
  split <;> rfl

end Sys2Proof.Machine
end

