-- ==== Sys2Proof/Laws/Exec.lean ====
section
/-! SUPPORT. Everything an operation can do, said once: `exec_next` lists the next states of `exec`, and a proof about every
operation is a case analysis of that list. Beside it, what each operation is admitted in. -/

namespace Sys2Proof.Machine

/-- The next states of an operation `i` from `s`. -/
inductive Effect (i : Instr) (s : State) : State → Prop
  /-- an ignored write, or an alert-test write with bit 0 clear -/
  | same (admitted : s.phase = .idle ∨ s.phase = .loaded) (bus : i.format = .bus) (noTest : isAlertTest i = false) :
    Effect i s s
  /-- a read of a register -/
  | read (v : Word) (admitted : s.phase = .idle ∨ s.phase = .loaded) (bus : i.format = .bus)
    (noTest : isAlertTest i = false) : Effect i s (respond s (.rdata v))
  /-- a read of an unknown offset -/
  | readUnknown (offset : Word) (admitted : s.phase = .idle ∨ s.phase = .loaded) (op : i = .rdUnknown offset) :
    Effect i s (respond (warn s .unknownOffset offset.toNat) (.rdata 0))
  /-- a write to an unknown offset -/
  | writeUnknown (offset wdata : Word) (admitted : s.phase = .idle ∨ s.phase = .loaded)
    (op : i = .wrUnknown offset wdata) : Effect i s (warn s .unknownOffset offset.toNat)
  /-- an alert-test write with bit 0 set -/
  | test (wdata : Word) (admitted : s.phase = .idle ∨ s.phase = .loaded) (op : i = .wrAlertTest wdata)
    (bit : wdata.getLsbD 0 = true) : Effect i s (alertTest s)
  /-- a key of the wrong length -/
  | keyFormat (kbytes : List Byte) (idle : s.phase = .idle) (op : i = .setKey kbytes) :
    Effect i s (raiseFatal s .keyFormat kbytes.length)
  | setKey (kbytes : List Byte) (idle : s.phase = .idle) (unset : s.keySet = false) (op : i = .setKey kbytes) :
    Effect i s (setKeyRegs s (keyK0 s.cfg kbytes) (keyK1 s.cfg kbytes))
  /-- a nonce of the wrong length -/
  | nonceFormat (nbytes : List Byte) (idle : s.phase = .idle) (op : i = .setNonce nbytes) :
    Effect i s (raiseFatal s .nonceFormat nbytes.length)
  | setNonce (nbytes : List Byte) (nonce : DWord) (idle : s.phase = .idle) (unset : s.nonceSet = false)
    (op : i = .setNonce nbytes) :
    Effect i s (setNonceRegs s nonce (splitAddrKey s.cfg nonce) (splitDataNonce s.cfg nonce))
  | loadBegin (idle : s.phase = .idle) (key : s.keySet = true) (nonce : s.nonceSet = true) (op : i = .loadBegin) :
    Effect i s (beginLoad s)
  /-- a scrambled index that is too wide or decodes outside the store -/
  | indexFatal (sidx : Word) (spay : DWord) (code : FatalCode) (info : Nat) (loading : s.phase = .loading)
    (op : i = .loadWord sidx spay) (index : logicalIndex s sidx = .fatal code info) :
    Effect i s (raiseFatal s code info)
  /-- a payload that is too wide -/
  | payloadFatal (sidx : Word) (spay : DWord) (idx : Nat) (loading : s.phase = .loading)
    (op : i = .loadWord sidx spay) (index : logicalIndex s sidx = .index idx) :
    Effect i s (raiseFatal (recordPayload s idx spay) .payloadWidth spay.toNat)
  | loadWord (sidx : Word) (spay : DWord) (idx : Nat) (plain : Codeword) (loading : s.phase = .loading)
    (op : i = .loadWord sidx spay) (index : logicalIndex s sidx = .index idx)
    (payload : decodePayload (recordPayload s idx spay) idx spay = some plain) (inside : idx * 4 + 4 ≤ s.cfg.romBytes) :
    Effect i s (withStore (checkDecoded (recordPayload s idx spay) idx plain)
      (s.store.writeBytes (idx * 4) (storeBytes s.cfg (plain.extractLsb' 0 32))))
  | loadEnd (loading : s.phase = .loading) (op : i = .loadEnd) : Effect i s (finishLoad s)
  | reset (admitted : s.phase = .idle ∨ s.phase = .loaded) (op : i = .reset) :
    Effect i s (resetFlags s (digestsDiffer s))
  /-- a primitive call -/
  | primitive (a : Response) (admitted : s.phase ≠ .failed) (prim : i.format = .prim) : Effect i s (respond s a)

variable {i : Instr} {s t : State}

theorem effect_busIgnore (bus : i.format = .bus) (noTest : isAlertTest i = false) (h : busIgnore s = .next t) :
    Effect i s t := by
  obtain ⟨hp, rfl⟩ := busIgnore_next h
  exact .same hp bus noTest

theorem effect_busRead {v : State → Word} (bus : i.format = .bus) (noTest : isAlertTest i = false)
    (h : busRead s v = .next t) : Effect i s t := by
  obtain ⟨hp, rfl⟩ := busRead_next h
  exact .read _ hp bus noTest

theorem effect_wrAlertTest {w : Word} (h : execWrAlertTest w s = .next t) : Effect (.wrAlertTest w) s t := by
  obtain ⟨hp, h⟩ := admitBus_next h
  cases hw : w.getLsbD 0 <;> rw [hw] at h <;> cases h
  · exact .same hp rfl hw
  · exact .test w hp rfl hw

theorem effect_rdUnknown {o : Word} (h : execRdUnknown o s = .next t) : Effect (.rdUnknown o) s t := by
  obtain ⟨hp, h⟩ := admitBus_next h
  cases h
  exact .readUnknown o hp rfl

theorem effect_wrUnknown {o w : Word} (h : execWrUnknown o w s = .next t) : Effect (.wrUnknown o w) s t := by
  obtain ⟨hp, h⟩ := admitBus_next h
  cases h
  exact .writeUnknown o w hp rfl

theorem effect_setKey {b : List Byte} (h : execSetKey b s = .next t) : Effect (.setKey b) s t := by
  obtain ⟨hp, hk, h⟩ := admitConfig_next h
  split at h <;> cases h
  · exact .keyFormat b hp rfl
  · exact .setKey b hp hk rfl

theorem effect_setNonce {b : List Byte} (h : execSetNonce b s = .next t) : Effect (.setNonce b) s t := by
  obtain ⟨hp, hk, h⟩ := admitConfig_next h
  split at h <;> cases h
  · exact .nonceFormat b hp rfl
  · exact .setNonce b _ hp hk rfl

theorem effect_loadWord {a : Word} {p : DWord} (h : execLoadWord a p s = .next t) : Effect (.loadWord a p) s t := by
  obtain ⟨hp, ⟨code, info, hi, rfl⟩ | ⟨idx, hi, h⟩⟩ := execLoadWord_next h
  · exact .indexFatal a p code info hp rfl hi
  · obtain ⟨hd, rfl⟩ | ⟨plain, hd, hr, rfl⟩ := loadAt_next h
    · exact .payloadFatal a p idx hp rfl hi
    · exact .loadWord a p idx plain hp rfl hi hd hr

theorem effect_lbc {r : State → LbcResult} (prim : i.format = .prim)
    (h : (admitPrim s fun s => answerLbc s (r s)) = .next t) : Effect i s t := by
  obtain ⟨hp, h⟩ := admitPrim_next h
  obtain ⟨a, rfl⟩ := answerLbc_next h
  exact .primitive a hp prim

theorem effect_rbcEnc {d k1 k0 : DWord} {w r : Nat} (h : execRbcEnc d k1 k0 w r s = .next t) :
    Effect (.rbcEnc d k1 k0 w r) s t := by
  obtain ⟨hp, h⟩ := admitPrim_next h
  split_ifs at h
  cases h
  exact .primitive _ hp rfl

theorem effect_loadBegin (h : execLoadBegin s = .next t) : Effect .loadBegin s t := by
  obtain ⟨hp, hk, hn, h⟩ := admitBegin_next h
  cases h
  exact .loadBegin hp hk hn rfl

theorem effect_loadEnd (h : execLoadEnd s = .next t) : Effect .loadEnd s t := by
  obtain ⟨hp, h⟩ := admitLoading_next h
  cases h
  exact .loadEnd hp rfl

theorem effect_reset (h : execReset s = .next t) : Effect .reset s t := by
  obtain ⟨hp, h⟩ := admitReset_next h
  cases h
  exact .reset hp rfl

theorem effect_eccAdd {w : Word} (h : execEccAdd w s = .next t) : Effect (.eccAdd w) s t := by
  obtain ⟨hp, h⟩ := admitPrim_next h
  cases h
  exact .primitive _ hp rfl

theorem effect_eccChk {v : Codeword} (h : execEccChk v s = .next t) : Effect (.eccChk v) s t := by
  obtain ⟨hp, h⟩ := admitPrim_next h
  cases h
  exact .primitive _ hp rfl

/-- Every next state of every operation is one of the listed ones. -/
theorem exec_next (h : exec i s = .next t) : Effect i s t := by
  cases i
  case wrFatalAlertCause => exact effect_busIgnore rfl rfl h
  case wrDigest0 => exact effect_busIgnore rfl rfl h
  case wrDigest1 => exact effect_busIgnore rfl rfl h
  case wrDigest2 => exact effect_busIgnore rfl rfl h
  case wrDigest3 => exact effect_busIgnore rfl rfl h
  case wrDigest4 => exact effect_busIgnore rfl rfl h
  case wrDigest5 => exact effect_busIgnore rfl rfl h
  case wrDigest6 => exact effect_busIgnore rfl rfl h
  case wrDigest7 => exact effect_busIgnore rfl rfl h
  case wrExpectedDigest0 => exact effect_busIgnore rfl rfl h
  case wrExpectedDigest1 => exact effect_busIgnore rfl rfl h
  case wrExpectedDigest2 => exact effect_busIgnore rfl rfl h
  case wrExpectedDigest3 => exact effect_busIgnore rfl rfl h
  case wrExpectedDigest4 => exact effect_busIgnore rfl rfl h
  case wrExpectedDigest5 => exact effect_busIgnore rfl rfl h
  case wrExpectedDigest6 => exact effect_busIgnore rfl rfl h
  case wrExpectedDigest7 => exact effect_busIgnore rfl rfl h
  case wrAlertTest => exact effect_wrAlertTest h
  case rdUnknown => exact effect_rdUnknown h
  case wrUnknown => exact effect_wrUnknown h
  case setKey => exact effect_setKey h
  case setNonce => exact effect_setNonce h
  case loadBegin => exact effect_loadBegin h
  case loadWord => exact effect_loadWord h
  case loadEnd => exact effect_loadEnd h
  case reset => exact effect_reset h
  case lbcEnc d k w r => exact effect_lbc (r := fun s => lbcEnc s.cfg d k w r) rfl h
  case lbcDec d k w r => exact effect_lbc (r := fun s => lbcDec s.cfg d k w r) rfl h
  case rbcEnc => exact effect_rbcEnc h
  case eccAdd => exact effect_eccAdd h
  case eccChk => exact effect_eccChk h
  case rdAlertTest => exact effect_busRead (v := fun _ => 0) rfl rfl h
  case rdFatalAlertCause => exact effect_busRead (v := fatalAlertCause) rfl rfl h
  case rdDigest0 => exact effect_busRead (v := fun s => s.observed[0]) rfl rfl h
  case rdDigest1 => exact effect_busRead (v := fun s => s.observed[1]) rfl rfl h
  case rdDigest2 => exact effect_busRead (v := fun s => s.observed[2]) rfl rfl h
  case rdDigest3 => exact effect_busRead (v := fun s => s.observed[3]) rfl rfl h
  case rdDigest4 => exact effect_busRead (v := fun s => s.observed[4]) rfl rfl h
  case rdDigest5 => exact effect_busRead (v := fun s => s.observed[5]) rfl rfl h
  case rdDigest6 => exact effect_busRead (v := fun s => s.observed[6]) rfl rfl h
  case rdDigest7 => exact effect_busRead (v := fun s => s.observed[7]) rfl rfl h
  case rdExpectedDigest0 => exact effect_busRead (v := fun s => s.expected[0]) rfl rfl h
  case rdExpectedDigest1 => exact effect_busRead (v := fun s => s.expected[1]) rfl rfl h
  case rdExpectedDigest2 => exact effect_busRead (v := fun s => s.expected[2]) rfl rfl h
  case rdExpectedDigest3 => exact effect_busRead (v := fun s => s.expected[3]) rfl rfl h
  case rdExpectedDigest4 => exact effect_busRead (v := fun s => s.expected[4]) rfl rfl h
  case rdExpectedDigest5 => exact effect_busRead (v := fun s => s.expected[5]) rfl rfl h
  case rdExpectedDigest6 => exact effect_busRead (v := fun s => s.expected[6]) rfl rfl h
  case rdExpectedDigest7 => exact effect_busRead (v := fun s => s.expected[7]) rfl rfl h

/-- The next states of a step: with a request pending, those of the operation it decodes to. -/
theorem step_next (h : step s = .next t) :
    (s.pending = [] ∧ s.fatal = none ∧ t = s) ∨
    ∃ r rest i, s.pending = r :: rest ∧ decode r = .ok i ∧ Effect i (withPending s rest) t := by
  unfold step at h
  cases hp : s.pending with
  | nil =>
    rw [nextRequest_nil hp] at h
    exact .inl ⟨rfl, idleStep_next h⟩
  | cons r rest =>
    rw [nextRequest_cons hp] at h
    dsimp only at h
    cases hd : decode r with
    | ok i => exact .inr ⟨r, rest, i, rfl, hd, exec_next (by simpa [hd] using h)⟩
    | error e =>
      rw [hd] at h
      obtain ⟨r, hr⟩ := refuseUndecoded_refuses e (withPending s rest)
      simp [hr] at h

/-- A step with nothing pending. -/
theorem step_nil (hp : s.pending = []) : step s = idleStep s := by simp [step, nextRequest_nil hp]

/-- A step with a request pending that is an operation. -/
theorem step_cons {r : Request} {rest : List Request} (hp : s.pending = r :: rest) (hd : decode r = .ok i) :
    step s = exec i (withPending s rest) := by
  simp [step, nextRequest_cons hp, hd]

/-- A bus access is admitted in Idle and Loaded, and then always gives a next state. -/
theorem exec_bus (bus : i.format = .bus) :
    ∃ k : State → StepResult, (∀ s, ∃ t, k s = .next t) ∧ ∀ s, exec i s = admitBus s k := by
  cases i <;> first | (cases bus; done) | exact ⟨_, fun _ => ⟨_, rfl⟩, fun _ => rfl⟩

/-! ### The composite updates as one record update -/

theorem checkDecoded_eq (s : State) (idx : Nat) (plain : Codeword) :
    checkDecoded s idx plain = { s with
      warnings := if !reserved s.cfg idx && !eccChk s.cfg.tables plain then s.warnings ++ [⟨.ecc, idx⟩] else s.warnings } := by
  unfold checkDecoded
  split <;> rfl

theorem recordPayload_eq (s : State) (idx : Nat) (spay : DWord) :
    recordPayload s idx spay = { s with
      expected := if reserved s.cfg idx
        then s.expected.setIfInBounds (idx - (romWords s.cfg - digestWords)) (spay.extractLsb' 0 32) else s.expected
      acc := if reserved s.cfg idx then s.acc else s.acc.set idx spay } := by
  unfold recordPayload
  split <;> rfl

theorem finishLoad_eq (s : State) : ∃ observed mismatch,
    finishLoad s = { s with observed := observed, integrityError := mismatch, phase := .loaded } := ⟨_, _, rfl⟩

/-- No operation touches the requests behind it. -/
theorem effect_pending (h : Effect i s t) : t.pending = s.pending := by
  rcases h <;> simp [alertTest_eq, checkDecoded_eq, finishLoad]

/-- No operation changes an argument of the model. -/
theorem effect_cfg (h : Effect i s t) : t.cfg = s.cfg := by
  rcases h <;> simp [alertTest_eq, checkDecoded_eq, finishLoad]

/-! ### The checker flag -/

/-- The checker flag is written by two operations only: the alert test, which sets the integrity flag with it, and RESET,
which clears it (10_state.md R29; the premise of the corner-case remark of 44_register_interface.md R212). -/
theorem effect_checkerError (h : Effect i s t) :
    t.checkerError = s.checkerError ∨
    (isAlertTest i = true ∧ t.checkerError = true ∧ t.integrityError = true) ∨
    (i = .reset ∧ t.checkerError = false) := by
  cases h with
  | test w _ op bit => subst op; exact .inr (.inl ⟨bit, by simp [alertTest_eq]⟩)
  | reset _ op => exact .inr (.inr ⟨op, rfl⟩)
  | _ => exact .inl (by simp [checkDecoded_eq, finishLoad])

/-- The one operation after which the checker flag can stand without the integrity flag, where it did not before, is
LOAD.END: it writes the integrity flag and leaves the checker flag (43_descrambling_pipeline.md R196). -/
theorem effect_checkerAlone (h : Effect i s t) (before : s.checkerError = true → s.integrityError = true)
    (checker : t.checkerError = true) (integrity : t.integrityError = false) : i = .loadEnd := by
  cases h with
  | loadEnd _ op => exact op
  | _ => simp_all [alertTest_eq, checkDecoded_eq]

end Sys2Proof.Machine
end

