-- ==== Sys2Proof/Laws/Lbc.lean ====
section
/-! SUPPORT. The layers of the lightweight block cipher undo each other, and the cipher inside its domain. -/

namespace Sys2Proof.Machine

variable {w : Nat}

theorem getLsbD_permLayer (x : BitVec w) (i : Nat) (hi : i < w) :
    (permLayer x).getLsbD i =
      if i < w / 2 then x.getLsbD (2 * i)
      else if i < 2 * (w / 2) then x.getLsbD (2 * (i - w / 2) + 1) else x.getLsbD i := by
  simp only [permLayer, getLsbD_ofBits, hi, decide_true, Bool.true_and]

theorem getLsbD_permInvLayer (x : BitVec w) (i : Nat) (hi : i < w) :
    (permInvLayer x).getLsbD i =
      if i < 2 * (w / 2) then (if i % 2 = 0 then x.getLsbD (i / 2) else x.getLsbD (i / 2 + w / 2)) else x.getLsbD i := by
  simp only [permInvLayer, getLsbD_ofBits, hi, decide_true, Bool.true_and]

/-- `Flip` is its own inverse (40_lightweight_block_cipher.md R104). -/
theorem flipLayer_flipLayer (x : BitVec w) : flipLayer (flipLayer x) = x := by
  apply BitVec.eq_of_getLsbD_eq
  intro i hi
  have h1 : w - 1 - i < w := by omega
  have h2 : w - 1 - (w - 1 - i) = i := by omega
  simp only [flipLayer, getLsbD_ofBits, hi, h1, h2, decide_true, Bool.true_and]

theorem lbcF_lbcF (c : Config) (x : BitVec w) : lbcF c (lbcF c x) = x := by
  unfold lbcF
  split
  · exact flipLayer_flipLayer x
  · rfl

/-- `PermInv` undoes `Perm` (40_lightweight_block_cipher.md R105). -/
theorem permInvLayer_permLayer (x : BitVec w) : permInvLayer (permLayer x) = x := by
  apply BitVec.eq_of_getLsbD_eq
  intro i hi
  rw [getLsbD_permInvLayer _ _ hi]
  by_cases h : i < 2 * (w / 2)
  · have h2 : i / 2 < w / 2 := by omega
    rw [if_pos h]
    by_cases hp : i % 2 = 0
    · rw [if_pos hp, getLsbD_permLayer _ _ (by omega), if_pos h2]
      congr 1
      omega
    · rw [if_neg hp, getLsbD_permLayer _ _ (by omega), if_neg (by omega), if_pos (by omega)]
      congr 1
      omega
  · rw [if_neg h, getLsbD_permLayer _ _ hi, if_neg (by omega), if_neg h]

/-- `Perm` undoes `PermInv` (40_lightweight_block_cipher.md R105). -/
theorem permLayer_permInvLayer (x : BitVec w) : permLayer (permInvLayer x) = x := by
  apply BitVec.eq_of_getLsbD_eq
  intro i hi
  rw [getLsbD_permLayer _ _ hi]
  by_cases h1 : i < w / 2
  · rw [if_pos h1, getLsbD_permInvLayer _ _ (by omega), if_pos (by omega), if_pos (by omega)]
    congr 1
    omega
  · rw [if_neg h1]
    by_cases h2 : i < 2 * (w / 2)
    · rw [if_pos h2, getLsbD_permInvLayer _ _ (by omega), if_pos (by omega), if_neg (by omega)]
      congr 1
      omega
    · rw [if_neg h2, getLsbD_permInvLayer _ _ hi, if_neg h2]

/-- A table that is a permutation and its inverse undo each other on every nibble. -/
theorem lookup_inverse {t : Vector Nibble 16} (h : sboxInvertible t = true) (n : Nibble) :
    lookupInv t (lookup t n) = n ∧ lookup t (lookupInv t n) = n := by
  have hn := List.all_eq_true.1 h n.toNat (List.mem_range.2 n.isLt)
  simpa using hn

/-- A round of the inverse direction, before its key, undoes a forward round after its key. -/
theorem decRound_encRound {c : Config} (h : sboxInvertible c.tables.presentSbox = true) (key s : BitVec w) :
    decRound c key (encRound c key s ^^^ key) = s ^^^ key := by
  unfold decRound encRound
  rw [BitVec.xor_assoc, BitVec.xor_self, BitVec.xor_zero, permInvLayer_permLayer, lbcF_lbcF]
  exact subLayer_subLayer _ _ (fun n => (lookup_inverse h n).1) _

/-- A forward round, before its key, undoes a round of the inverse direction after its key. -/
theorem encRound_decRound {c : Config} (h : sboxInvertible c.tables.presentSbox = true) (key s : BitVec w) :
    encRound c key (decRound c key s ^^^ key) = s ^^^ key := by
  unfold decRound encRound
  rw [BitVec.xor_assoc, BitVec.xor_self, BitVec.xor_zero,
    subLayer_subLayer _ _ (fun n => (lookup_inverse h n).2), lbcF_lbcF, permLayer_permInvLayer]

/-! ### The cipher inside its domain -/

theorem lbcEnc_value {c : Config} {data key width : Nat} (rounds : Nat) (hw : width ≤ 64) (hd : data < 2 ^ width)
    (hk : key < 2 ^ width) :
    lbcEnc c data key width rounds =
      .value ((encRounds c (BitVec.ofNat width key) rounds (BitVec.ofNat width data) ^^^ BitVec.ofNat width key).setWidth 64) := by
  simp [lbcEnc, Nat.not_le.2 hk, Nat.not_le.2 hd, Nat.not_lt.2 hw]

theorem lbcDec_value {c : Config} {data key width : Nat} (rounds : Nat) (hw : width ≤ 64) (hd : data < 2 ^ width)
    (hk : key < 2 ^ width) :
    lbcDec c data key width rounds =
      .value ((decRounds c (BitVec.ofNat width key) rounds (BitVec.ofNat width data) ^^^ BitVec.ofNat width key).setWidth 64) := by
  simp [lbcDec, Nat.not_le.2 hk, Nat.not_le.2 hd, Nat.not_lt.2 hw]

/-- A value of up to 64 bits is the same number in its 64-bit carrier. -/
theorem toNat_setWidth_64 (hw : w ≤ 64) (x : BitVec w) : (x.setWidth 64).toNat = x.toNat := by
  have h1 := x.isLt
  have h2 : 2 ^ w ≤ 2 ^ 64 := Nat.pow_le_pow_right (by decide) hw
  rw [BitVec.toNat_setWidth]
  omega

end Sys2Proof.Machine
end

