-- ==== Sys2Proof/Laws/Memory.lean ====
section
/-! SUPPORT. The laws of the backing store: a read after a write, and the canonical form, which every operation keeps. -/

namespace Sys2Proof.Machine

/-- A read after a write: the byte written at its address, what was there before at every other. -/
theorem Memory.read_write (m : Memory) (a x : Nat) (b : Byte) :
    (m.write a b).read x = if x = a then some b else m.read x := by
  induction m with
  | nil => simp [Memory.write, Memory.read]
  | cons e m ih =>
    obtain ⟨k, v⟩ := e
    simp only [Memory.write]
    by_cases h1 : a < k
    · simp only [if_pos h1, Memory.read]
    · rw [if_neg h1]
      by_cases h2 : a = k
      · subst h2
        by_cases hx : x = a <;> simp [Memory.read, hx]
      · simp only [if_neg h2, Memory.read, ih]
        by_cases hx : x = k
        · have hxa : ¬ x = a := by omega
          simp only [if_pos hx, if_neg hxa]
        · simp only [if_neg hx]

/-- The addresses a write lists are the old ones and its own. -/
theorem Memory.mem_write (m : Memory) (a : Nat) (b : Byte) (e : Nat × Byte) (h : e ∈ m.write a b) :
    e = (a, b) ∨ e ∈ m := by
  induction m with
  | nil => simpa [Memory.write] using h
  | cons c m ih =>
    obtain ⟨k, v⟩ := c
    simp only [Memory.write] at h
    split_ifs at h with h1 h2
    · simpa using h
    · rcases List.mem_cons.1 h with h | h
      · exact .inl h
      · exact .inr (List.mem_cons_of_mem _ h)
    · rcases List.mem_cons.1 h with h | h
      · exact .inr (h ▸ List.mem_cons_self)
      · exact (ih h).imp_right (List.mem_cons_of_mem _)

/-- Writing a byte keeps the canonical form. -/
theorem Memory.write_wf (m : Memory) (a : Nat) (b : Byte) (h : m.wf) : (m.write a b).wf := by
  induction m with
  | nil => simp [Memory.write, Memory.wf]
  | cons c m ih =>
    obtain ⟨k, v⟩ := c
    obtain ⟨hk, hm⟩ := List.pairwise_cons.1 h
    simp only [Memory.write]
    split_ifs with h1 h2
    · refine List.pairwise_cons.2 ⟨fun e he => ?_, h⟩
      rcases List.mem_cons.1 he with rfl | he
      · exact h1
      · exact Nat.lt_trans h1 (hk e he)
    · exact List.pairwise_cons.2 ⟨fun e he => h2 ▸ hk e he, hm⟩
    · refine List.pairwise_cons.2 ⟨fun e he => ?_, ih hm⟩
      rcases Memory.mem_write m a b e he with rfl | he
      · show k < a
        omega
      · exact hk e he

/-- Writing consecutive bytes keeps the canonical form. -/
theorem Memory.writeBytes_wf (m : Memory) (a : Nat) (bs : List Byte) (h : m.wf) : (m.writeBytes a bs).wf := by
  induction bs generalizing m a with
  | nil => exact h
  | cons b bs ih => exact ih _ _ (Memory.write_wf m a b h)

/-- A read after a write of consecutive bytes. -/
theorem Memory.read_writeBytes (m : Memory) (a x : Nat) (bs : List Byte) :
    (m.writeBytes a bs).read x = if a ≤ x ∧ x < a + bs.length then bs[x - a]? else m.read x := by
  induction bs generalizing m a with
  | nil =>
    have h : ¬ (a ≤ x ∧ x < a + ([] : List Byte).length) := by simp
    rw [if_neg h]
    rfl
  | cons b bs ih =>
    simp only [Memory.writeBytes, ih, Memory.read_write, List.length_cons]
    by_cases hx : x = a
    · subst hx
      simp
    · by_cases h1 : a + 1 ≤ x ∧ x < a + 1 + bs.length
      · obtain ⟨n, hn⟩ : ∃ n, x - a = n + 1 := ⟨x - a - 1, by omega⟩
        have h2 : a ≤ x ∧ x < a + (bs.length + 1) := by omega
        have h3 : x - (a + 1) = n := by omega
        rw [if_pos h1, if_pos h2, hn, h3, List.getElem?_cons_succ]
      · have h2 : ¬ (a ≤ x ∧ x < a + (bs.length + 1)) := by omega
        rw [if_neg h1, if_neg h2, if_neg hx]

/-- Writing consecutive bytes inside a bound lists no address beyond it. -/
theorem Memory.writeBytes_bound (m : Memory) (a n : Nat) (bs : List Byte) (h : ∀ e ∈ m, e.1 < n)
    (hn : a + bs.length ≤ n) : ∀ e ∈ m.writeBytes a bs, e.1 < n := by
  induction bs generalizing m a with
  | nil => exact h
  | cons b bs ih =>
    simp only [List.length_cons] at hn
    refine ih _ _ (fun e he => ?_) (by omega)
    rcases Memory.mem_write m a b e he with rfl | he
    · show a < n
      omega
    · exact h e he

end Sys2Proof.Machine
end

