-- ==== Sys2Proof/Laws/PerInstr.lean ====
section
/-! SUPPORT. A statement about every operation as syntax, one lemma per constructor: the encoder presents an operation
in the format its row of opcode_table.json names. -/

namespace Sys2Proof.Laws.FormatAgrees

/-- The request that stands for `i` is presented in `i`'s format (30_encoding.md R70, R71, R77, R78). -/
def Statement (i : Instr) : Prop := (encode i).format = i.format

theorem rdAlertTest : Statement (.rdAlertTest) := rfl
theorem wrAlertTest (wdata : Word) : Statement (.wrAlertTest wdata) := rfl
theorem rdFatalAlertCause : Statement (.rdFatalAlertCause) := rfl
theorem wrFatalAlertCause (wdata : Word) : Statement (.wrFatalAlertCause wdata) := rfl
theorem rdDigest0 : Statement (.rdDigest0) := rfl
theorem rdDigest1 : Statement (.rdDigest1) := rfl
theorem rdDigest2 : Statement (.rdDigest2) := rfl
theorem rdDigest3 : Statement (.rdDigest3) := rfl
theorem rdDigest4 : Statement (.rdDigest4) := rfl
theorem rdDigest5 : Statement (.rdDigest5) := rfl
theorem rdDigest6 : Statement (.rdDigest6) := rfl
theorem rdDigest7 : Statement (.rdDigest7) := rfl
theorem wrDigest0 (wdata : Word) : Statement (.wrDigest0 wdata) := rfl
theorem wrDigest1 (wdata : Word) : Statement (.wrDigest1 wdata) := rfl
theorem wrDigest2 (wdata : Word) : Statement (.wrDigest2 wdata) := rfl
theorem wrDigest3 (wdata : Word) : Statement (.wrDigest3 wdata) := rfl
theorem wrDigest4 (wdata : Word) : Statement (.wrDigest4 wdata) := rfl
theorem wrDigest5 (wdata : Word) : Statement (.wrDigest5 wdata) := rfl
theorem wrDigest6 (wdata : Word) : Statement (.wrDigest6 wdata) := rfl
theorem wrDigest7 (wdata : Word) : Statement (.wrDigest7 wdata) := rfl
theorem rdExpectedDigest0 : Statement (.rdExpectedDigest0) := rfl
theorem rdExpectedDigest1 : Statement (.rdExpectedDigest1) := rfl
theorem rdExpectedDigest2 : Statement (.rdExpectedDigest2) := rfl
theorem rdExpectedDigest3 : Statement (.rdExpectedDigest3) := rfl
theorem rdExpectedDigest4 : Statement (.rdExpectedDigest4) := rfl
theorem rdExpectedDigest5 : Statement (.rdExpectedDigest5) := rfl
theorem rdExpectedDigest6 : Statement (.rdExpectedDigest6) := rfl
theorem rdExpectedDigest7 : Statement (.rdExpectedDigest7) := rfl
theorem wrExpectedDigest0 (wdata : Word) : Statement (.wrExpectedDigest0 wdata) := rfl
theorem wrExpectedDigest1 (wdata : Word) : Statement (.wrExpectedDigest1 wdata) := rfl
theorem wrExpectedDigest2 (wdata : Word) : Statement (.wrExpectedDigest2 wdata) := rfl
theorem wrExpectedDigest3 (wdata : Word) : Statement (.wrExpectedDigest3 wdata) := rfl
theorem wrExpectedDigest4 (wdata : Word) : Statement (.wrExpectedDigest4 wdata) := rfl
theorem wrExpectedDigest5 (wdata : Word) : Statement (.wrExpectedDigest5 wdata) := rfl
theorem wrExpectedDigest6 (wdata : Word) : Statement (.wrExpectedDigest6 wdata) := rfl
theorem wrExpectedDigest7 (wdata : Word) : Statement (.wrExpectedDigest7 wdata) := rfl
theorem rdUnknown (offset : Word) : Statement (.rdUnknown offset) := rfl
theorem wrUnknown (offset : Word) (wdata : Word) : Statement (.wrUnknown offset wdata) := rfl
theorem setKey (kbytes : List Byte) : Statement (.setKey kbytes) := rfl
theorem setNonce (nbytes : List Byte) : Statement (.setNonce nbytes) := rfl
theorem loadBegin : Statement (.loadBegin) := rfl
theorem loadWord (sidx : Word) (spay : DWord) : Statement (.loadWord sidx spay) := rfl
theorem loadEnd : Statement (.loadEnd) := rfl
theorem reset : Statement (.reset) := rfl
theorem lbcEnc (data : Nat) (key : Nat) (width : Nat) (rounds : Nat) : Statement (.lbcEnc data key width rounds) := rfl
theorem lbcDec (data : Nat) (key : Nat) (width : Nat) (rounds : Nat) : Statement (.lbcDec data key width rounds) := rfl
theorem rbcEnc (data : DWord) (k1 : DWord) (k0 : DWord) (width : Nat) (rounds : Nat) : Statement (.rbcEnc data k1 k0 width rounds) := rfl
theorem eccAdd (word : Word) : Statement (.eccAdd word) := rfl
theorem eccChk (value : Codeword) : Statement (.eccChk value) := rfl

end Sys2Proof.Laws.FormatAgrees
end

