-- ==== Sys2Proof/Laws/Pipe.lean ====
section
/-! SUPPORT. What LOAD.WORD's steps compute, in the terms the claims use (Safety.lean). -/

namespace Sys2Proof.Machine

variable {s : State} {sidx : Word} {idx : Nat} {spay : DWord}

theorem descrambledIndex_lt (s : State) (sidx : Word) : descrambledIndex s sidx < 2 ^ indexWidth s.cfg :=
  BitVec.isLt _

/-- Steps 1 and 2 for operands in the cipher's domain (43_descrambling_pipeline.md R188). -/
theorem logicalIndex_eq (hw : indexWidth s.cfg ≤ 64) (hk : s.addrKey.toNat < 2 ^ indexWidth s.cfg)
    (hs : sidx.toNat < 2 ^ indexWidth s.cfg) :
    logicalIndex s sidx =
      if romWords s.cfg ≤ descrambledIndex s sidx then .fatal .indexRange (descrambledIndex s sidx)
      else .index (descrambledIndex s sidx) := by
  simp only [logicalIndex]
  rw [lbcDec_value _ hw hs hk]
  simp only [toNat_setWidth_64 hw]
  rfl

/-- Step 1 for a scrambled index that does not fit. -/
theorem logicalIndex_width (hs : 2 ^ indexWidth s.cfg ≤ sidx.toNat) :
    logicalIndex s sidx = .fatal .indexWidth sidx.toNat := by
  simp [logicalIndex, lbcDec, hs]

/-- An index that steps 1 and 2 let through. -/
theorem logicalIndex_index (h : logicalIndex s sidx = .index idx) :
    idx = descrambledIndex s sidx ∧ idx < romWords s.cfg := by
  by_cases h1 : indexWidth s.cfg ≤ 64
  · by_cases h2 : sidx.toNat < 2 ^ indexWidth s.cfg
    · by_cases h3 : s.addrKey.toNat < 2 ^ indexWidth s.cfg
      · rw [logicalIndex_eq h1 h3 h2] at h
        split at h
        · cases h
        · cases h
          exact ⟨rfl, by omega⟩
      · simp [logicalIndex, lbcDec, Nat.not_lt.2 h1, Nat.not_le.2 h2, Nat.not_lt.1 h3] at h
    · rw [logicalIndex_width (Nat.not_lt.1 h2)] at h
      cases h
  · simp [logicalIndex, lbcDec, Nat.not_le.1 h1] at h

/-- Steps 5 to 7 for a payload below 2^39 (43_descrambling_pipeline.md R190). -/
theorem decodePayload_some (s : State) (idx : Nat) (hp : spay.toNat < 2 ^ 39) :
    decodePayload s idx spay = some (descrambledCodeword s idx spay) := by
  have hz : BitVec.ofNat 39 spay.toNat = spay.setWidth 39 := by
    apply BitVec.eq_of_toNat_eq
    simp
  simp only [decodePayload, codewordWidth]
  rw [lbcDec_value _ (by decide) hp (by decide)]
  simp only [descrambledCodeword, Option.some.injEq, hz]
  apply BitVec.eq_of_getLsbD_eq
  intro i hi
  have h64 : i < 64 := by omega
  simp [hi, h64]

/-- Step 5 for any other payload. -/
theorem decodePayload_none (s : State) (idx : Nat) (hp : 2 ^ 39 ≤ spay.toNat) : decodePayload s idx spay = none := by
  have hp' : 549755813888 ≤ spay.toNat := hp
  simp [decodePayload, codewordWidth, lbcDec, hp']

/-- Recording a payload does not change what it decodes to. -/
theorem descrambledCodeword_recordPayload (s : State) (i j : Nat) (p q : DWord) :
    descrambledCodeword (recordPayload s i p) j q = descrambledCodeword s j q := by
  simp only [descrambledCodeword, keystream, keystreamInput, recordPayload_cfg, recordPayload_k0, recordPayload_k1,
    recordPayload_dataNonce]

/-- A word index below `N` is four bytes inside the store. -/
theorem word_inside {c : Config} (h : idx < romWords c) : idx * 4 + 4 ≤ c.romBytes := by
  unfold romWords at h
  omega

end Sys2Proof.Machine
end

