-- ==== Sys2Proof/Tests/Slice0.lean ====
section
/-! SUPPORT. The model's own tests: ill-formed terms refused, words written out from the spec's encodings decoded, the
vectors of 95_test_vectors.md, and a witness for the hypotheses of every statement. -/

namespace Sys2Proof.Tests

open Sys2Proof Sys2Proof.Machine

set_option Elab.async false -- one test at a time: the kernel evaluations of all at once do not fit in memory

/-! ### Helpers -/

/-- The configuration of program P1 (95_test_vectors.md V21): N = 16, W = 4. -/
def smallConfig : Config := { defaultConfig with romBytes := 64 }

/-- N = 9, W = 3: the largest index is not representable (95_test_vectors.md V18). -/
def tinyConfig : Config := { defaultConfig with romBytes := 36 }

/-- N = 12, W = 4 (95_test_vectors.md V24). -/
def oddConfig : Config := { defaultConfig with romBytes := 48 }

/-- Every byte order big-endian. -/
def bigConfig : Config :=
  { smallConfig with keyByteOrder := .big, digestByteOrder := .big, storeByteOrder := .big }

def bigState : State := State.construct bigConfig

/-- A store of more than 2^66 bytes: W = 65 (assumption log 12). -/
def hugeState : State := State.construct { defaultConfig with romBytes := 2 ^ 66 + 8 }

def idleState : State := State.construct smallConfig

/-- Key and nonce of program P1 set. -/
def keyedState : State :=
  setNonceRegs (setKeyRegs idleState 0x0123456789ABCDEF 0xFEDCBA9876543210) 0x123456789ABCDEF0 0x1 0x23456789ABCDEF00

def loadingState : State := beginLoad keyedState

def loadedState : State := { keyedState with phase := .loaded }

def failedState : State := raiseFatal idleState .keyFormat 15

/-- The load of program P4, key and nonce zero (95_test_vectors.md V24). -/
def oddLoading : State := beginLoad (setNonceRegs (setKeyRegs (State.construct oddConfig) 0 0) 0 0 0)

/-- A load with N = 9, key and nonce zero. -/
def tinyLoading : State := beginLoad (setNonceRegs (setKeyRegs (State.construct tinyConfig) 0 0) 0 0 0)

/-- A field of the next state, if there is one. -/
def after {α : Type} (f : State → α) : StepResult → Option α
  | .next t => some (f t)
  | .fault _ => none
  | .refused _ => none

/-- The reason of a refusal. -/
def refusal : StepResult → Option Refusal
  | .next _ => none
  | .fault _ => none
  | .refused r => some r

/-- What the statements about LOAD.WORD assume of the state and the scrambled index. -/
abbrev IndexAdmitted (s : State) (sidx : Word) : Prop :=
  s.phase = .loading ∧ indexWidth s.cfg ≤ 64 ∧ s.addrKey.toNat < 2 ^ indexWidth s.cfg ∧
    sidx.toNat < 2 ^ indexWidth s.cfg

theorem exists_next {o : StepResult} (h : (after (fun _ => ()) o).isSome = true) : ∃ t, o = .next t := by
  cases o with
  | next t => exact ⟨t, rfl⟩
  | fault r => simp [after] at h
  | refused r => simp [after] at h

theorem exists_next_with {o : StepResult} {p : State → Bool} (h : after p o = some true) :
    ∃ t, o = .next t ∧ p t = true := by
  cases o with
  | next t => exact ⟨t, rfl, by simpa [after] using h⟩
  | fault r => simp [after] at h
  | refused r => simp [after] at h

/-! ### Well-formedness -/

/-- Terms that name no operation of the block: a default row at an offset of the register map (30_encoding.md R71). -/
theorem test_wf_refuses :
    (Instr.rdUnknown 0x00).wf = false ∧ (Instr.rdUnknown 0x44).wf = false ∧
    (Instr.wrUnknown 0x00 1).wf = false ∧ (Instr.wrUnknown 0x40 0).wf = false := by decide

/-- The nearest terms that do. -/
theorem test_wf_admits :
    (Instr.rdUnknown 0x01).wf = true ∧ (Instr.rdUnknown 0x48).wf = true ∧
    (Instr.wrUnknown 0x02 1).wf = true ∧ (Instr.wrUnknown 0xFFFFFFFC 0).wf = true := by decide

/-! ### Decoding words written out from 30_encoding.md -/

/-- AlertTest at 0x00, FatalAlertCause at 0x04, bit 32 the direction (R71 to R74). -/
theorem test_decode_alert :
    decode (.bus 32 0x000000000 {}) = .ok .rdAlertTest ∧
    decode (.bus 32 0x100000000 { wdata := 0x89ABCDEF }) = .ok (.wrAlertTest 0x89ABCDEF) ∧
    decode (.bus 32 0x000000004 {}) = .ok .rdFatalAlertCause ∧
    decode (.bus 32 0x100000004 { wdata := 0x89ABCDEF }) = .ok (.wrFatalAlertCause 0x89ABCDEF) := ⟨rfl, rfl, rfl, rfl⟩

/-- Digest0 to Digest7 at 0x08 to 0x24 (R75). -/
theorem test_decode_rdDigest :
    decode (.bus 32 0x000000008 {}) = .ok .rdDigest0 ∧
    decode (.bus 32 0x00000000C {}) = .ok .rdDigest1 ∧
    decode (.bus 32 0x000000010 {}) = .ok .rdDigest2 ∧
    decode (.bus 32 0x000000014 {}) = .ok .rdDigest3 ∧
    decode (.bus 32 0x000000018 {}) = .ok .rdDigest4 ∧
    decode (.bus 32 0x00000001C {}) = .ok .rdDigest5 ∧
    decode (.bus 32 0x000000020 {}) = .ok .rdDigest6 ∧
    decode (.bus 32 0x000000024 {}) = .ok .rdDigest7 := ⟨rfl, rfl, rfl, rfl, rfl, rfl, rfl, rfl⟩

/-- Digest0 to Digest7 at 0x08 to 0x24 (R75). -/
theorem test_decode_wrDigest :
    decode (.bus 32 0x100000008 { wdata := 0x89ABCDEF }) = .ok (.wrDigest0 0x89ABCDEF) ∧
    decode (.bus 32 0x10000000C { wdata := 0x89ABCDEF }) = .ok (.wrDigest1 0x89ABCDEF) ∧
    decode (.bus 32 0x100000010 { wdata := 0x89ABCDEF }) = .ok (.wrDigest2 0x89ABCDEF) ∧
    decode (.bus 32 0x100000014 { wdata := 0x89ABCDEF }) = .ok (.wrDigest3 0x89ABCDEF) ∧
    decode (.bus 32 0x100000018 { wdata := 0x89ABCDEF }) = .ok (.wrDigest4 0x89ABCDEF) ∧
    decode (.bus 32 0x10000001C { wdata := 0x89ABCDEF }) = .ok (.wrDigest5 0x89ABCDEF) ∧
    decode (.bus 32 0x100000020 { wdata := 0x89ABCDEF }) = .ok (.wrDigest6 0x89ABCDEF) ∧
    decode (.bus 32 0x100000024 { wdata := 0x89ABCDEF }) = .ok (.wrDigest7 0x89ABCDEF) := ⟨rfl, rfl, rfl, rfl, rfl, rfl, rfl, rfl⟩

/-- ExpectedDigest0 to ExpectedDigest7 at 0x28 to 0x44 (R76). -/
theorem test_decode_rdExpectedDigest :
    decode (.bus 32 0x000000028 {}) = .ok .rdExpectedDigest0 ∧
    decode (.bus 32 0x00000002C {}) = .ok .rdExpectedDigest1 ∧
    decode (.bus 32 0x000000030 {}) = .ok .rdExpectedDigest2 ∧
    decode (.bus 32 0x000000034 {}) = .ok .rdExpectedDigest3 ∧
    decode (.bus 32 0x000000038 {}) = .ok .rdExpectedDigest4 ∧
    decode (.bus 32 0x00000003C {}) = .ok .rdExpectedDigest5 ∧
    decode (.bus 32 0x000000040 {}) = .ok .rdExpectedDigest6 ∧
    decode (.bus 32 0x000000044 {}) = .ok .rdExpectedDigest7 := ⟨rfl, rfl, rfl, rfl, rfl, rfl, rfl, rfl⟩

/-- ExpectedDigest0 to ExpectedDigest7 at 0x28 to 0x44 (R76). -/
theorem test_decode_wrExpectedDigest :
    decode (.bus 32 0x100000028 { wdata := 0x89ABCDEF }) = .ok (.wrExpectedDigest0 0x89ABCDEF) ∧
    decode (.bus 32 0x10000002C { wdata := 0x89ABCDEF }) = .ok (.wrExpectedDigest1 0x89ABCDEF) ∧
    decode (.bus 32 0x100000030 { wdata := 0x89ABCDEF }) = .ok (.wrExpectedDigest2 0x89ABCDEF) ∧
    decode (.bus 32 0x100000034 { wdata := 0x89ABCDEF }) = .ok (.wrExpectedDigest3 0x89ABCDEF) ∧
    decode (.bus 32 0x100000038 { wdata := 0x89ABCDEF }) = .ok (.wrExpectedDigest4 0x89ABCDEF) ∧
    decode (.bus 32 0x10000003C { wdata := 0x89ABCDEF }) = .ok (.wrExpectedDigest5 0x89ABCDEF) ∧
    decode (.bus 32 0x100000040 { wdata := 0x89ABCDEF }) = .ok (.wrExpectedDigest6 0x89ABCDEF) ∧
    decode (.bus 32 0x100000044 { wdata := 0x89ABCDEF }) = .ok (.wrExpectedDigest7 0x89ABCDEF) := ⟨rfl, rfl, rfl, rfl, rfl, rfl, rfl, rfl⟩

/-- Offsets outside the map, misaligned ones among them (R71; 95_test_vectors.md V22). -/
theorem test_decode_unknown :
    decode (.bus 32 0x000000048 {}) = .ok (.rdUnknown 0x48) ∧
    decode (.bus 32 0x000000007 {}) = .ok (.rdUnknown 0x07) ∧
    decode (.bus 32 0x0FFFFFFFF {}) = .ok (.rdUnknown 0xFFFFFFFF) ∧
    decode (.bus 32 0x100000048 { wdata := 5 }) = .ok (.wrUnknown 0x48 5) ∧
    decode (.bus 32 0x100000002 { wdata := 1 }) = .ok (.wrUnknown 0x02 1) := ⟨rfl, rfl, rfl, rfl, rfl⟩

/-- The HOST ids (R77). -/
theorem test_decode_host :
    decode (.host 0x01 { bytes := [1, 2] }) = .ok (.setKey [1, 2]) ∧
    decode (.host 0x02 { bytes := [3] }) = .ok (.setNonce [3]) ∧
    decode (.host 0x10 {}) = .ok .loadBegin ∧
    decode (.host 0x11 { sidx := 0xF, spay := 0x11EAFA0C3F }) = .ok (.loadWord 0xF 0x11EAFA0C3F) ∧
    decode (.host 0x12 {}) = .ok .loadEnd ∧
    decode (.host 0x20 {}) = .ok .reset := ⟨rfl, rfl, rfl, rfl, rfl, rfl⟩

/-- The PRIM ids (R78); RBC's width is 64 where it is not given (41_reflection_cipher.md R130). -/
theorem test_decode_prim :
    decode (.prim 0x40 { lbcData := 1, lbcKey := 2, lbcWidth := 6, rounds := 3 }) = .ok (.lbcEnc 1 2 6 3) ∧
    decode (.prim 0x41 { lbcData := 1, lbcKey := 2, lbcWidth := 6, rounds := 3 }) = .ok (.lbcDec 1 2 6 3) ∧
    decode (.prim 0x50 { rbcData := 1, rbcK1 := 2, rbcK0 := 3, rounds := 6 }) = .ok (.rbcEnc 1 2 3 64 6) ∧
    decode (.prim 0x50 { rbcData := 1, rbcK1 := 2, rbcK0 := 3, rbcWidth := some 32, rounds := 6 }) = .ok (.rbcEnc 1 2 3 32 6) ∧
    decode (.prim 0x60 { word := 7 }) = .ok (.eccAdd 7) ∧
    decode (.prim 0x61 { value := 0x7FFFFFFFFF }) = .ok (.eccChk 0x7FFFFFFFFF) := ⟨rfl, rfl, rfl, rfl, rfl, rfl⟩

/-- What is no operation: a 16-bit access, ids in neither table (20_memory.md R55, 30_encoding.md R85; V25). -/
theorem test_decode_refuses :
    decode (.bus 16 0x000000004 {}) = .error .narrowAccess ∧ decode (.host 0x13 {}) = .error .unknownOperation ∧
    decode (.host 0x40 {}) = .error .unknownOperation ∧ decode (.prim 0x01 {}) = .error .unknownOperation := ⟨rfl, rfl, rfl, rfl⟩

/-- No two exact BUS rows have the same descriptor. -/
theorem test_busRows_distinct :
    (busRows.map BusRow.descriptor).Pairwise (· ≠ ·) := by decide +kernel

/-- The HOST and PRIM rows of opcode_table.json, operands zero. -/
theorem test_table_words_ids :
    decodeTableWord 8 0x01 = some (.setKey (List.replicate 16 0)) ∧
    decodeTableWord 8 0x02 = some (.setNonce (List.replicate 8 0)) ∧
    decodeTableWord 8 0x10 = some .loadBegin ∧
    decodeTableWord 8 0x11 = some (.loadWord 0 0) ∧
    decodeTableWord 8 0x12 = some .loadEnd ∧
    decodeTableWord 8 0x20 = some .reset ∧
    decodeTableWord 8 0x40 = some (.lbcEnc 0 0 0 0) ∧
    decodeTableWord 8 0x41 = some (.lbcDec 0 0 0 0) ∧
    decodeTableWord 8 0x50 = some (.rbcEnc 0 0 0 64 0) ∧
    decodeTableWord 8 0x60 = some (.eccAdd 0) ∧
    decodeTableWord 8 0x61 = some (.eccChk 0) := by decide +kernel

/-- The bus reads of opcode_table.json. -/
theorem test_table_words_reads :
    decodeTableWord 40 0x000000000 = some .rdAlertTest ∧
    decodeTableWord 40 0x000000004 = some .rdFatalAlertCause ∧
    decodeTableWord 40 0x000000008 = some .rdDigest0 ∧
    decodeTableWord 40 0x00000000C = some .rdDigest1 ∧
    decodeTableWord 40 0x000000010 = some .rdDigest2 ∧
    decodeTableWord 40 0x000000014 = some .rdDigest3 ∧
    decodeTableWord 40 0x000000018 = some .rdDigest4 ∧
    decodeTableWord 40 0x00000001C = some .rdDigest5 ∧
    decodeTableWord 40 0x000000020 = some .rdDigest6 ∧
    decodeTableWord 40 0x000000024 = some .rdDigest7 ∧
    decodeTableWord 40 0x000000028 = some .rdExpectedDigest0 ∧
    decodeTableWord 40 0x00000002C = some .rdExpectedDigest1 ∧
    decodeTableWord 40 0x000000030 = some .rdExpectedDigest2 ∧
    decodeTableWord 40 0x000000034 = some .rdExpectedDigest3 ∧
    decodeTableWord 40 0x000000038 = some .rdExpectedDigest4 ∧
    decodeTableWord 40 0x00000003C = some .rdExpectedDigest5 ∧
    decodeTableWord 40 0x000000040 = some .rdExpectedDigest6 ∧
    decodeTableWord 40 0x000000044 = some .rdExpectedDigest7 ∧
    decodeTableWord 40 0x000000048 = some (.rdUnknown 0x48) := by decide +kernel

/-- The bus writes of opcode_table.json. -/
theorem test_table_words_writes :
    decodeTableWord 40 0x100000000 = some (.wrAlertTest 0) ∧
    decodeTableWord 40 0x100000004 = some (.wrFatalAlertCause 0) ∧
    decodeTableWord 40 0x100000008 = some (.wrDigest0 0) ∧
    decodeTableWord 40 0x10000000C = some (.wrDigest1 0) ∧
    decodeTableWord 40 0x100000010 = some (.wrDigest2 0) ∧
    decodeTableWord 40 0x100000014 = some (.wrDigest3 0) ∧
    decodeTableWord 40 0x100000018 = some (.wrDigest4 0) ∧
    decodeTableWord 40 0x10000001C = some (.wrDigest5 0) ∧
    decodeTableWord 40 0x100000020 = some (.wrDigest6 0) ∧
    decodeTableWord 40 0x100000024 = some (.wrDigest7 0) ∧
    decodeTableWord 40 0x100000028 = some (.wrExpectedDigest0 0) ∧
    decodeTableWord 40 0x10000002C = some (.wrExpectedDigest1 0) ∧
    decodeTableWord 40 0x100000030 = some (.wrExpectedDigest2 0) ∧
    decodeTableWord 40 0x100000034 = some (.wrExpectedDigest3 0) ∧
    decodeTableWord 40 0x100000038 = some (.wrExpectedDigest4 0) ∧
    decodeTableWord 40 0x10000003C = some (.wrExpectedDigest5 0) ∧
    decodeTableWord 40 0x100000040 = some (.wrExpectedDigest6 0) ∧
    decodeTableWord 40 0x100000044 = some (.wrExpectedDigest7 0) ∧
    decodeTableWord 40 0x100000048 = some (.wrUnknown 0x48 0) := by decide +kernel

/-- The first step after reset runs the word placed (SETKEY of 16 zero bytes; RD of 0x48). -/
theorem test_first_step :
    after (fun t => (t.keySet, t.phase)) (step (State.reset.withFetchWord 8 0x01)) = some (true, .idle) ∧
    after (fun t => t.warnings) (step (State.reset.withFetchWord 40 0x48)) = some [⟨.unknownOffset, 0x48⟩] := by decide +kernel

/-! ### Primitives: the vectors of 95_test_vectors.md -/

/-- V9. -/
theorem test_lbcEnc_vectors :
    lbcEnc defaultConfig 0x0 0x0 4 1 = .value 0x5 ∧
    lbcEnc defaultConfig 0x1 0x0 4 1 = .value 0xC ∧
    lbcEnc defaultConfig 0x5 0x3 4 1 = .value 0x0 ∧
    lbcEnc defaultConfig 0x5 0x3 4 0 = .value 0x6 ∧
    lbcEnc defaultConfig 0x0 0x0 6 2 = .value 0x1C ∧
    lbcEnc defaultConfig 0x2A 0x15 6 2 = .value 0x39 ∧
    lbcEnc defaultConfig 0x1 0x0 1 1 = .value 0x1 ∧
    lbcEnc defaultConfig 0x1 0x1 1 2 = .value 0x0 ∧
    lbcEnc defaultConfig 0x0 0x0 0 2 = .value 0x0 ∧
    lbcEnc defaultConfig 0x5 0x0 3 1 = .value 0x5 ∧
    lbcEnc defaultConfig 0x123 0x2AB 10 2 = .value 0x6B ∧
    lbcEnc defaultConfig 0x2A00000000 0x0 39 2 = .value 0x24040F02 ∧
    lbcEnc defaultConfig 0x7FFFFFFFFF 0x0 39 2 = .value 0x756FF95BFC ∧
    lbcEnc defaultConfig 0x123456789ABCDEF 0xFEDCBA9876543210 64 2 = .value 0x375B26E0AD768F32 ∧
    lbcEnc defaultConfig 0x12345678 0x0 32 2 = .value 0xB5F49375 := by decide +kernel

/-- V9, and the domain errors and refusals of V11. -/
theorem test_lbcDec_vectors :
    lbcDec defaultConfig 0x0 0x0 6 2 = .value 0x2F ∧
    lbcDec defaultConfig 0x3F 0x0 6 2 = .value 0x17 ∧
    lbcDec defaultConfig 0x1C 0x0 6 2 = .value 0x0 ∧
    lbcDec defaultConfig 0x0 0x0 39 2 = .value 0x400000000C ∧
    lbcDec defaultConfig 0x2A00000000 0x0 39 2 = .value 0x577777000C ∧
    lbcDec defaultConfig 0x12345678 0x0 32 2 = .value 0xA8EE3FC2 ∧
    lbcDec defaultConfig 0xB5F49375 0x0 32 2 = .value 0x12345678 ∧
    lbcDec defaultConfig 0x375B26E0AD768F32 0xFEDCBA9876543210 64 2 = .value 0x123456789ABCDEF ∧
    lbcDec defaultConfig 0x40 0 6 2 = .domain ∧ lbcDec defaultConfig 0x8000000000 0 39 2 = .domain ∧
    lbcEnc defaultConfig 0 0x40 6 2 = .keyWidth ∧ lbcEnc defaultConfig 0 0 65 1 = .domain := by decide +kernel

/-- V10: LBC_FLIP = false. -/
theorem test_lbc_without_flip :
    let c := { defaultConfig with lbcFlip := false }
    lbcEnc c 0 0 4 1 = .value 0xA ∧ lbcEnc c 0 0 6 2 = .value 0xE ∧ lbcEnc c 0x12345678 0 32 2 = .value 0xF09D64B := by decide +kernel

/-- V13. -/
theorem test_rbcEnc_vectors :
    rbcEnc defaultTables 0x0 0x0 0x0 6 = 0x445339F1DB06CE57 ∧
    rbcEnc defaultTables 0x1 0x0 0x0 6 = 0xF1EC4E269773AFFA ∧
    rbcEnc defaultTables 0x123456789ABCDEF 0x11223344556677 0x8899AABBCCDDEEFF 6 = 0xE3E7F842F447F80E ∧
    rbcEnc defaultTables 0x0 0x0 0x0 0 = 0xC0AC29B7C97C50DD ∧
    rbcEnc defaultTables 0x0 0x0 0x0 2 = 0xCAF779279E0A8B67 ∧
    rbcEnc defaultTables 0x0 0x0 0x0 8 = 0xDE85B28E3F334CC5 ∧
    rbcEnc defaultTables 0x0 0x0 0x0 10 = 0x818665AA0D02DFDA ∧
    rbcEnc defaultTables 0x0 0xFFFFFFFFFFFFFFFF 0xFFFFFFFFFFFFFFFF 10 = 0xB9F952807615743F := by decide +kernel

/-- V14. -/
theorem test_rbc_layers :
    reflectedKey 0x8000000000000001 = 0xC000000000000001 ∧ reflectedKey 0x8899AABBCCDDEEFF = 0xC44CD55DE66EF77E ∧
    mprime defaultTables 0x10000 = 0x11100000 ∧ mprime defaultTables 0x0123456789ABCDEF = 0x3012456789ABFCDE ∧
    shiftRows defaultTables 0x0123456789ABCDEF = 0x05AF49E38D27C16B ∧
    shiftRowsInv defaultTables 0x0123456789ABCDEF = 0x0DA741EB852FC963 ∧
    rbcSub defaultTables 0x0123456789ABCDEF = 0xBF32AC916780E5D4 := by decide +kernel

/-- V16. -/
theorem test_eccAdd_vectors :
    eccAdd defaultTables 0x0 = 0x2A00000000 ∧
    eccAdd defaultTables 0x1 = 0x3300000001 ∧
    eccAdd defaultTables 0x2 = 0x7E00000002 ∧
    eccAdd defaultTables 0xFFFFFFFF = 0x2AFFFFFFFF ∧
    eccAdd defaultTables 0x12345678 = 0x4712345678 ∧
    eccAdd defaultTables 0xDEADBEEF = 0x25DEADBEEF ∧
    eccAdd defaultTables 0x80000000 = 0x7880000000 ∧
    eccAdd defaultTables 0x600DF00D = 0x49600DF00D := by decide +kernel

/-- V17. -/
theorem test_eccChk_vectors :
    eccChk defaultTables 0x2A00000000 = true ∧
    eccChk defaultTables 0x4712345678 = true ∧
    eccChk defaultTables 0x0 = false ∧
    eccChk defaultTables 0x2A00000001 = false ∧
    eccChk defaultTables 0x2A80000000 = false ∧
    eccChk defaultTables 0x2B00000000 = false ∧
    eccChk defaultTables 0x6A00000000 = false ∧
    eccChk defaultTables 0x2A00000003 = false ∧
    eccChk defaultTables 0x800000000 = false ∧
    eccChk defaultTables 0x7FFFFFFFFF = false := by decide +kernel

/-- The inverse tables the spec lists (40 R102, 41 R132, 41 R135). -/
theorem test_inverse_tables :
    (List.range 16).map (fun n => lookupInv presentSbox (BitVec.ofNat 4 n)) =
      [5, 0xE, 0xF, 8, 0xC, 1, 2, 0xD, 0xB, 4, 6, 3, 0, 7, 9, 0xA] ∧
    (List.range 16).map (fun n => lookupInv princeSbox (BitVec.ofNat 4 n)) =
      [0xB, 7, 3, 2, 0xF, 0xD, 8, 9, 0xA, 6, 4, 0, 5, 0xE, 0xC, 1] ∧
    (List.range 16).map (srInvIndex defaultTables) = [12, 9, 6, 3, 0, 13, 10, 7, 4, 1, 14, 11, 8, 5, 2, 15] := by decide +kernel

/-- V18. -/
theorem test_index_width :
    [9, 12, 16, 17, 33, 64, 65].map (fun n => indexWidth { defaultConfig with romBytes := 4 * n }) = [3, 4, 4, 4, 5, 6, 6] := by decide +kernel

/-- V18. -/
theorem test_nonce_split :
    splitAddrKey smallConfig 0x123456789ABCDEF0 = 0x1 ∧
    splitDataNonce smallConfig 0x123456789ABCDEF0 = 0x23456789ABCDEF00 ∧
    splitAddrKey defaultConfig 0xFFFFFFFFFFFFFFFF = 0x3F ∧
    splitDataNonce defaultConfig 0xFFFFFFFFFFFFFFFF = 0xFFFFFFFFFFFFFFC0 ∧
    splitAddrKey oddConfig 0x8000000000000001 = 0x8 ∧ splitDataNonce oddConfig 0x8000000000000001 = 0x10 := by decide +kernel

/-- V19: the hash of the empty string. -/
theorem test_hash_empty :
    hashOf defaultConfig [] =
      [0xAC, 0x71, 0x60, 0x61, 0x46, 0xD5, 0xD5, 0x5E, 0x65, 0x45, 0x49, 0x57, 0x3D, 0x30, 0x8E, 0x38] ++
      [0x2A, 0x13, 0x08, 0x34, 0x9A, 0x0C, 0xD5, 0x2D, 0x05, 0x10, 0xCC, 0xF5, 0x2A, 0x56, 0x50, 0xCE] := by decide +kernel

/-! ### Operations, one step each -/

/-- V21 step 1. -/
theorem test_setKey :
    after (fun t => (t.k0, t.k1, t.keySet)) (exec (.setKey ([0x10, 0x32, 0x54, 0x76, 0x98, 0xBA, 0xDC, 0xFE] ++
      [0xEF, 0xCD, 0xAB, 0x89, 0x67, 0x45, 0x23, 0x01])) idleState) =
      some (0x0123456789ABCDEF, 0xFEDCBA9876543210, true) := by decide +kernel

/-- V25: 15 bytes. -/
theorem test_setKey_length :
    after (fun t => (t.phase, t.fatal)) (exec (.setKey (List.replicate 15 0)) idleState) =
      some (.failed, some ⟨.keyFormat, 15⟩) := by decide +kernel

/-- Decision D5: KEY_BYTE_ORDER = BE, each half most significant byte first. -/
theorem test_setKey_big :
    after (fun t => (t.k0, t.k1)) (exec (.setKey ([0xFE, 0xDC, 0xBA, 0x98, 0x76, 0x54, 0x32, 0x10] ++
      [0x01, 0x23, 0x45, 0x67, 0x89, 0xAB, 0xCD, 0xEF])) bigState) = some (0x0123456789ABCDEF, 0xFEDCBA9876543210) := by decide +kernel

/-- V21 step 2. -/
theorem test_setNonce :
    after (fun t => (t.nonce, t.addrKey, t.dataNonce))
      (exec (.setNonce [0xF0, 0xDE, 0xBC, 0x9A, 0x78, 0x56, 0x34, 0x12]) idleState) =
      some (0x123456789ABCDEF0, 0x1, 0x23456789ABCDEF00) := by decide +kernel

/-- V25: 9 bytes. -/
theorem test_setNonce_length :
    after (fun t => t.fatal) (exec (.setNonce (List.replicate 9 0)) idleState) = some (some ⟨.nonceFormat, 9⟩) := by decide +kernel

/-- V21 step 3, V25: before SETNONCE, and 43 R186: both flags of an alert test before it are unchanged. -/
theorem test_loadBegin :
    after (fun t => t.phase) (exec .loadBegin keyedState) = some .loading ∧
    refusal (exec .loadBegin (setKeyRegs idleState 0 0)) = some .unconfigured ∧
    after (fun t => (t.checkerError, t.integrityError)) (exec .loadBegin (alertTest keyedState)) = some (true, true) := by decide +kernel

/-- V21 step 4: idx 9, in the digest region. -/
theorem test_loadWord_digest :
    after (fun t => (t.expected[1], t.warnings, t.acc)) (exec (.loadWord 0x0 0x00AC564694) loadingState) =
      some (0xAC564694, [], List.replicate 8 0) ∧
    after (fun t => t.store) (exec (.loadWord 0x0 0x00AC564694) loadingState) =
      some [(36, 0x0F), (37, 0xDE), (38, 0xD6), (39, 0x33)] := by decide +kernel

/-- V23: the payload of idx 3 with bit 0 flipped. -/
theorem test_loadWord_corrupt :
    after (fun t => (t.acc[3]?, t.warnings)) (exec (.loadWord 0xC 0x2CF56992B5) loadingState) =
      some (some 0x2CF56992B5, [⟨.ecc, 3⟩]) ∧
    after (fun t => t.store) (exec (.loadWord 0xC 0x2CF56992B5) loadingState) =
      some [(12, 0x77), (13, 0x56), (14, 0x34), (15, 0x12)] := by decide +kernel

/-- V19: no payload words loaded, N = 12; an alert test before the load leaves the checker flag set (43 R196). -/
theorem test_loadEnd :
    after (fun t => (t.observed[0], t.observed[7], t.integrityError, t.checkerError, t.phase))
      (exec .loadEnd { oddLoading with checkerError := true }) = some (0x91E20C5E, 0xE3DCDFA7, true, true, .loaded) := by decide +kernel

/-- V22 step 9: both flags and the latch set, the digests equal; V25: in Loading. -/
theorem test_reset :
    after (fun t => (t.checkerError, t.integrityError, t.alertLatched, t.alertEvents))
      (exec .reset (alertTest loadedState)) = some (false, false, false, 1) ∧
    refusal (exec .reset loadingState) = some .loadState := by decide +kernel

/-- V22 steps 1, 3 and 8. -/
theorem test_wrAlertTest :
    after (fun t => (t.checkerError, t.alertEvents)) (exec (.wrAlertTest 0) loadedState) = some (false, 0) ∧
    after (fun t => (t.checkerError, t.integrityError, t.alertLatched, t.alertEvents))
      (exec (.wrAlertTest 1) loadedState) = some (true, true, true, 1) ∧
    after (fun t => t.alertEvents) (exec (.wrAlertTest 0xFFFFFFFF) (alertTest loadedState)) = some 2 := by decide +kernel

/-- V22, end: ALERT_RETRIGGER = false fires once. -/
theorem test_wrAlertTest_once :
    after (fun t => t.alertEvents) (exec (.wrAlertTest 0xFFFFFFFF)
      (alertTest { loadedState with cfg := { smallConfig with alertRetrigger := false } })) = some 1 := by decide +kernel

/-- V22 step 5. -/
theorem test_rdAlertTest :
    after (fun t => t.responses) (exec .rdAlertTest (alertTest loadedState)) = some [.rdata 0] := by decide +kernel

/-- V22 step 4, V23, and the example of 44 R211: 3 after an alert test at power-on. -/
theorem test_rdFatalAlertCause :
    after (fun t => t.responses) (exec .rdFatalAlertCause (alertTest loadedState)) = some [.rdata 3] ∧
    after (fun t => t.responses) (exec .rdFatalAlertCause { loadedState with integrityError := true }) =
      some [.rdata 2] ∧
    after (fun t => t.responses) (exec .rdFatalAlertCause (alertTest idleState)) = some [.rdata 3] := by decide +kernel

/-- Sixteen different digest words. -/
def digestState : State :=
  { loadedState with observed := #v[10, 11, 12, 13, 14, 15, 16, 17], expected := #v[20, 21, 22, 23, 24, 25, 26, 27] }

/-- The j-th register reads the j-th word (44_register_interface.md R214 to R221). -/
theorem test_rdDigests :
    ([.rdDigest0, .rdDigest1, .rdDigest2, .rdDigest3, .rdDigest4, .rdDigest5, .rdDigest6, .rdDigest7] : List Instr).map
      (fun i => after (fun t => t.responses) (exec i digestState)) =
      [10, 11, 12, 13, 14, 15, 16, 17].map fun v => some [.rdata v] := by decide +kernel

/-- The j-th register reads the j-th word (44_register_interface.md R230 to R237). -/
theorem test_rdExpectedDigests :
    ([.rdExpectedDigest0, .rdExpectedDigest1, .rdExpectedDigest2, .rdExpectedDigest3, .rdExpectedDigest4,
        .rdExpectedDigest5, .rdExpectedDigest6, .rdExpectedDigest7] : List Instr).map
      (fun i => after (fun t => t.responses) (exec i digestState)) =
      [20, 21, 22, 23, 24, 25, 26, 27].map fun v => some [.rdata v] := by decide +kernel

/-- V22 steps 6 and 13. -/
theorem test_readOnly_writes :
    after (fun t => t) (exec (.wrDigest0 0xFFFFFFFF) digestState) = some digestState ∧
    after (fun t => t) (exec (.wrFatalAlertCause 0) digestState) = some digestState ∧
    after (fun t => t) (exec (.wrExpectedDigest7 0xFFFFFFFF) digestState) = some digestState := by decide +kernel

/-- V22 step 11. -/
theorem test_rdUnknown :
    after (fun t => (t.responses, t.warnings)) (exec (.rdUnknown 0x48) loadedState) =
      some ([.rdata 0], [⟨.unknownOffset, 0x48⟩]) := by decide +kernel

/-- V22 step 12: not an alert test. -/
theorem test_wrUnknown :
    after (fun t => (t.responses, t.warnings, t.alertEvents)) (exec (.wrUnknown 0x02 1) loadedState) =
      some ([], [⟨.unknownOffset, 0x02⟩], 0) := by decide +kernel

/-- Primitive calls return their value and are refused as V11 and V15 say. -/
theorem test_prim_calls :
    after (fun t => t.responses) (exec (.lbcEnc 0 0 6 2) idleState) = some [.value 0x1C] ∧
    after (fun t => t.responses) (exec (.lbcDec 0x40 0 6 2) loadingState) = some [.lbcDomain] ∧
    refusal (exec (.lbcEnc 0 0x40 6 2) idleState) = some .lbcKeyWidth ∧
    after (fun t => t.responses) (exec (.rbcEnc 0 0 0 64 4) loadedState) = some [.value 0x8DE73504739B9745] ∧
    refusal (exec (.rbcEnc 0 0 0 64 5) idleState) = some .rbcRounds ∧
    refusal (exec (.rbcEnc 0 0 0 64 12) idleState) = some .rbcRounds ∧
    refusal (exec (.rbcEnc 0 0 0 32 6) idleState) = some .rbcWidth ∧
    after (fun t => t.responses) (exec (.eccAdd 0) idleState) = some [.codeword 0x2A00000000] ∧
    after (fun t => t.responses) (exec (.eccChk 0) idleState) = some [.check false] := by decide +kernel

/-- A recorded fatal error is a fault where nothing is pending, and refuses what is (60_exceptions.md R250; V25). -/
theorem test_fatal_never_final :
    (match step failedState with | .fault f => some f | _ => none) = some (.fatalError ⟨.keyFormat, 15⟩) ∧
    refusal (step (placeRequest failedState (readRequest 0x04))) = some .afterFault ∧
    refusal (step (placeRequest failedState (encode .reset))) = some .afterFault := by decide +kernel

/-! ### Witnesses: the hypotheses of each statement, met together -/

/-- DecodeOfEncode. -/
theorem test_witness_DecodeOfEncode :
    (Instr.rdUnknown 0x48).wf = true ∧ (Instr.wrUnknown 0x45 0).wf = true ∧ (Instr.setKey []).wf = true := by decide +kernel

/-- EveryBusAccessSelectsOneRow. -/
theorem test_witness_EveryBusAccessSelectsOneRow :
    isRegisterOffset 0x48 = false ∧ isRegisterOffset 0x43 = false ∧ isRegisterOffset 0x00 = true ∧
    isRegisterOffset 0x44 = true := by decide +kernel

/-- StepServesTheOldestRequest. -/
theorem test_witness_StepServesTheOldestRequest :
    (∃ rest i, (placeRequest idleState (readRequest 0x04)).pending = readRequest 0x04 :: rest ∧
      decode (readRequest 0x04) = .ok i) ∧ idleState.pending = [] ∧ idleState.fatal = none := ⟨⟨_, _, rfl, rfl⟩, rfl, rfl⟩

/-- UndecodableRequestsAreRefused. -/
theorem test_witness_UndecodableRequestsAreRefused :
    (∀ s ∈ [idleState, loadedState, loadingState, failedState],
      (placeRequest s (.bus 16 0x4 {})).pending = .bus 16 0x4 {} :: []) ∧ 16 ≠ 32 ∧ loadingState.phase = .loading ∧
    (0x13 : Byte) ∉ [0x01, 0x02, 0x10, 0x11, 0x12, 0x20] ∧ (0x42 : Byte) ∉ [0x40, 0x41, 0x50, 0x60, 0x61] ∧
    failedState.phase = .failed ∧ loadedState.phase = .loaded ∧ idleState.phase = .idle := by decide +kernel

/-- PowerOnValues. -/
theorem test_witness_PowerOnValues :
    32 < tinyConfig.romBytes ∧ tinyConfig.romBytes % 4 = 0 := by decide +kernel

/-- RomSizeConstructionError. -/
theorem test_witness_RomSizeConstructionError :
    ({ defaultConfig with romBytes := 32 } : Config).romBytes ≤ 32 ∧
    ({ defaultConfig with romBytes := 38 } : Config).romBytes % 4 ≠ 0 ∧ tinyConfig.romBytes = 36 ∧
    (State.construct tinyConfig).phase = .idle := by decide +kernel

/-- IndexWidthIsLeast. -/
theorem test_witness_IndexWidthIsLeast :
    romWords tinyConfig - 1 = 2 ^ 3 ∧ romWords tinyConfig = 9 ∧ romWords oddConfig = 12 ∧ romWords smallConfig = 16 ∧
    romWords defaultConfig = 64 ∧ romWords { defaultConfig with romBytes := 68 } = 17 ∧
    romWords { defaultConfig with romBytes := 260 } = 65 ∧ romWords { defaultConfig with romBytes := 32768 } = 8192 := by decide +kernel

/-- DigestReadsComplete, ExpectedDigestReadsComplete, AlertRegisterReadsComplete, ReadOnlyWritesAreIgnored,
UnknownOffsetAccessesComplete. -/
theorem test_witness_BusReadsAndWritesAdmitted :
    (idleState.phase = .idle ∨ idleState.phase = .loaded) ∧ (loadedState.phase = .idle ∨ loadedState.phase = .loaded) := by decide +kernel

/-- AlertTestWriteCompletes. -/
theorem test_witness_AlertTestWriteCompletes :
    idleState.phase = .idle ∧ (1 : Word).getLsbD 0 = true ∧ (0xFFFFFFFE : Word).getLsbD 0 = false ∧
    idleState.cfg.alertRetrigger = true ∧ idleState.alertLatched = false ∧
    (alertTest { idleState with cfg := { smallConfig with alertRetrigger := false } }).cfg.alertRetrigger = false ∧
    (alertTest { idleState with cfg := { smallConfig with alertRetrigger := false } }).alertLatched = true := by decide +kernel

/-- BusAdmission. -/
theorem test_witness_BusAdmission :
    (Instr.rdUnknown 1).format = .bus ∧ (Instr.wrExpectedDigest7 1).format = .bus ∧ Instr.rdAlertTest.format = .bus ∧
    loadingState.phase = .loading ∧ failedState.phase = .failed := by decide +kernel

/-- MisalignedOffsetIsUnknown. -/
theorem test_witness_MisalignedOffsetIsUnknown :
    (0x43 : Word).toNat % 4 ≠ 0 ∧ (placeRequest loadedState (readRequest 0x43)).pending = readRequest 0x43 :: [] ∧
    (placeRequest idleState (writeRequest 0x01 1)).pending = writeRequest 0x01 1 :: [] ∧ (0x01 : Word).toNat % 4 ≠ 0 ∧
    (placeRequest loadedState (readRequest 0x43)).phase = .loaded := by decide +kernel

/-- BusReadsHaveNoSideEffect. -/
theorem test_witness_BusReadsHaveNoSideEffect :
    isBusRead .rdDigest0 = true ∧ isBusRead (.rdUnknown 0x48) = true ∧ (∃ t, exec .rdDigest0 idleState = .next t) ∧
    ∃ t, exec (.rdUnknown 0x48) loadedState = .next t := ⟨by decide, by decide, exists_next (by decide +kernel), exists_next (by decide +kernel)⟩

/-- OnlyTheAlertTestWriteHasAnEffect. -/
theorem test_witness_OnlyTheAlertTestWriteHasAnEffect :
    isBusWrite (.wrDigest0 1) = true ∧ isAlertTest (.wrDigest0 1) = false ∧ (∃ t, exec (.wrDigest0 1) idleState = .next t) ∧
    isBusWrite (.wrAlertTest 2) = true ∧ isAlertTest (.wrAlertTest 2) = false ∧
    ∃ t, exec (.wrAlertTest 2) idleState = .next t := ⟨by decide, by decide, exists_next (by decide +kernel), by decide, by decide, exists_next (by decide +kernel)⟩

/-- BusAccessRevealsOnlyFlagsAndDigests. -/
theorem test_witness_BusAccessRevealsOnlyFlagsAndDigests :
    let t := setKeyRegs idleState 1 2
    Instr.rdFatalAlertCause.format = .bus ∧ idleState.phase = t.phase ∧ idleState.checkerError = t.checkerError ∧
    idleState.integrityError = t.integrityError ∧ idleState.observed = t.observed ∧ idleState.expected = t.expected ∧
    (after (fun _ => ()) (exec .rdFatalAlertCause idleState)).isSome = true := by decide +kernel

/-- OnlyTheAlertTestFiresTheAlert. -/
theorem test_witness_OnlyTheAlertTestFiresTheAlert :
    isAlertTest (.wrAlertTest 1) = true ∧ idleState.cfg.alertRetrigger = true ∧ isAlertTest .reset = false ∧
    (after (fun _ => ()) (exec (.wrAlertTest 1) idleState)).isSome = true ∧
    (after (fun _ => ()) (exec .reset idleState)).isSome = true := by decide +kernel

/-- SetKeyCompletes. -/
theorem test_witness_SetKeyCompletes :
    idleState.phase = .idle ∧ idleState.keySet = false ∧ (List.replicate 16 (0 : Byte)).length = 16 ∧
    idleState.cfg.keyByteOrder = .little ∧ bigState.phase = .idle ∧ bigState.keySet = false ∧
    bigState.cfg.keyByteOrder = .big := by decide +kernel

/-- SetNonceCompletes. -/
theorem test_witness_SetNonceCompletes :
    idleState.phase = .idle ∧ idleState.nonceSet = false ∧ (List.replicate 8 (0 : Byte)).length = 8 ∧
    idleState.cfg.keyByteOrder = .little ∧ indexWidth idleState.cfg ≤ 64 ∧ bigState.phase = .idle ∧
    bigState.nonceSet = false ∧ bigState.cfg.keyByteOrder = .big ∧ hugeState.phase = .idle ∧
    hugeState.nonceSet = false ∧ indexWidth hugeState.cfg = 65 ∧ indexWidth { defaultConfig with romBytes := 2 ^ 66 } = 64 := by decide +kernel

/-- MalformedKeyAndNonceAreFatal. -/
theorem test_witness_MalformedKeyAndNonceAreFatal :
    idleState.phase = .idle ∧ idleState.keySet = false ∧ idleState.nonceSet = false ∧
    (List.replicate 17 (0 : Byte)).length ≠ 16 ∧ ([] : List Byte).length ≠ 8 := by decide +kernel

/-- NonceSplit. -/
theorem test_witness_NonceSplit :
    indexWidth tinyConfig ≤ 64 ∧ indexWidth defaultConfig ≤ 64 := by decide +kernel

/-- ConfigurationRefusals. -/
theorem test_witness_ConfigurationRefusals :
    keyedState.phase ≠ .failed ∧ keyedState.keySet = true ∧ keyedState.nonceSet = true ∧ loadedState.phase ≠ .failed ∧
    loadedState.phase ≠ .idle := by decide +kernel

/-- KeyAndNonceAreImmutableOnceSet. -/
theorem test_witness_KeyAndNonceAreImmutableOnceSet :
    (∃ t, step (placeRequest keyedState (encode .loadBegin)) = .next t) ∧ keyedState.keySet = true ∧ keyedState.nonceSet = true := ⟨exists_next (by decide +kernel), rfl, rfl⟩

/-- LoadBeginCompletes. -/
theorem test_witness_LoadBeginCompletes :
    keyedState.phase = .idle ∧ keyedState.keySet = true ∧ keyedState.nonceSet = true := by decide +kernel

/-- LoadRefusals. -/
theorem test_witness_LoadRefusals :
    loadedState.phase ≠ .failed ∧ loadedState.phase ≠ .idle ∧ loadedState.phase ≠ .loading ∧ idleState.phase = .idle ∧
    idleState.keySet = false ∧ loadingState.phase = .loading := by decide +kernel

/-- LoadWordCompletes. -/
theorem test_witness_LoadWordCompletes :
    IndexAdmitted loadingState 0x0 ∧ descrambledIndex loadingState 0x0 < romWords loadingState.cfg ∧
    IndexAdmitted loadingState 0xF ∧ descrambledIndex loadingState 0xF < romWords loadingState.cfg ∧
    (0x7FFFFFFFFF : DWord).toNat < 2 ^ 39 := by decide +kernel

/-- MemWriteWritesFourBytes. -/
theorem test_witness_MemWriteWritesFourBytes :
    idleState.cfg.storeByteOrder = .little ∧ 60 + 4 ≤ idleState.cfg.romBytes := by decide +kernel

/-- OnlyLoadWordWritesTheStore. -/
theorem test_witness_OnlyLoadWordWritesTheStore :
    (∃ t, exec (.loadWord 0 0) loadingState = .next t) ∧ ∃ t, exec .loadEnd loadingState = .next t := ⟨exists_next (by decide +kernel), exists_next (by decide +kernel)⟩

/-- IndexErrorsAreFatal. -/
theorem test_witness_IndexErrorsAreFatal :
    loadingState.phase = .loading ∧ 2 ^ indexWidth loadingState.cfg ≤ (0x10 : Word).toNat ∧
    IndexAdmitted oddLoading 0x6 ∧ romWords oddLoading.cfg ≤ descrambledIndex oddLoading 0x6 ∧
    IndexAdmitted oddLoading 0x9 ∧ romWords oddLoading.cfg = descrambledIndex oddLoading 0x9 := by decide +kernel

/-- PayloadErrorKeepsEarlierWrites. -/
theorem test_witness_PayloadErrorKeepsEarlierWrites :
    IndexAdmitted loadingState 0x0 ∧ descrambledIndex loadingState 0x0 < romWords loadingState.cfg ∧
    IndexAdmitted loadingState 0xF ∧ descrambledIndex loadingState 0xF < romWords loadingState.cfg ∧
    2 ^ 39 ≤ (0x8000000000 : DWord).toNat := by decide +kernel

/-- TopIndexIsUnreachable. -/
theorem test_witness_TopIndexIsUnreachable :
    romWords tinyLoading.cfg = 2 ^ 3 + 1 ∧ romSizeOk tinyLoading.cfg = true ∧
    (∃ t, step (placeRequest tinyLoading (encode (.loadWord 7 0))) = .next t) ∧ tinyLoading.expected[7] = 0 ∧
    (romWords tinyLoading.cfg - 1) * 4 ≤ 35 ∧ 35 < (romWords tinyLoading.cfg - 1) * 4 + 4 := ⟨by decide, by decide, exists_next (by decide +kernel), rfl, by decide, by decide⟩

/-- LoadEndCompletes. -/
theorem test_witness_LoadEndCompletes :
    loadingState.phase = .loading ∧ loadingState.cfg.digestByteOrder = .little ∧
    (let s := { loadingState with cfg := bigConfig }
    s.phase = .loading ∧ s.cfg.digestByteOrder = .big) := by decide +kernel

/-- HashInputLayout. -/
theorem test_witness_HashInputLayout :
    loadingState.acc.length = romWords loadingState.cfg - 8 ∧ romWords State.reset.cfg = 64 ∧
    State.reset.acc.length = romWords State.reset.cfg - 8 ∧ 55 < State.reset.acc.length ∧
    loadingState.cfg.hashSlotForm = .raw39 ∧ (0x7FFFFFFFFF : DWord).toNat < 2 ^ 39 ∧
    ({ smallConfig with hashSlotForm := .rawLow32 } : Config).hashSlotForm = .rawLow32 ∧
    ({ smallConfig with hashSlotForm := .decoded32 } : Config).hashSlotForm = .decoded32 := by decide +kernel

/-- KeystreamInputIsConcatenation. -/
theorem test_witness_KeystreamInputIsConcatenation :
    indexWidth loadingState.cfg ≤ 64 ∧ loadingState.dataNonce = splitDataNonce loadingState.cfg loadingState.nonce ∧
    15 < 2 ^ indexWidth loadingState.cfg := by decide +kernel

/-- LoadIsItsExpansion. -/
theorem test_witness_LoadIsItsExpansion :
    let image : List (Word × DWord) := [(0x0, 0x00AC564694), (0x5, 0x6FDDD3DF50)]
    (withPending keyedState (expandLoad image)).pending = expandLoad image ++ [] ∧
    ∃ t, loadImage image (withPending keyedState []) = .next t ∧ decide (t.phase = .loaded) = true := ⟨by decide +kernel, exists_next_with (by decide +kernel)⟩

/-- FatalErrorEndsTheLoad. -/
theorem test_witness_FatalErrorEndsTheLoad :
    (loadingState.phase = .loading ∧
      ∃ t, loadWords [(0x0, 0x00AC564694), (0x10, 0)] loadingState = .next t ∧ decide (t.phase = .failed) = true) ∧
    execLoadBegin keyedState = .next loadingState := ⟨⟨rfl, exists_next_with (by decide +kernel)⟩, rfl⟩

/-- ResetCompletes. -/
theorem test_witness_ResetCompletes :
    idleState.phase = .idle ∧ loadedState.phase = .loaded := by decide +kernel

/-- ResetLaws. -/
theorem test_witness_ResetLaws :
    (∃ t, exec .reset loadedState = .next t) ∧
    ∃ t, exec .loadEnd loadingState = .next t ∧ ∃ u, execAll [.rdDigest0, .wrAlertTest 1] t = .next u ∧
      ∃ v, exec .reset u = .next v := ⟨exists_next (by decide +kernel), _, rfl, _, rfl, _, rfl⟩

/-- ResetDoesNotReopenTheLoad. -/
theorem test_witness_ResetDoesNotReopenTheLoad :
    loadedState.phase = .loaded ∧ ∃ t, exec .reset loadedState = .next t := ⟨rfl, exists_next (by decide +kernel)⟩

/-- LbcRoundTrip, LbcCallsComplete, LbcCornerCases, EccCallsComplete: the largest datum and key at width 64, the only ones at
width 0, the largest at width 1. -/
theorem test_witness_LbcCalls :
    sboxInvertible defaultTables.presentSbox = true ∧ 64 ≤ 64 ∧ 2 ^ 64 - 1 < 2 ^ 64 ∧ 0 < 2 ^ 0 ∧ idleState.phase ≠ .failed ∧
    1 < 2 := by decide +kernel

/-- LbcDomainErrors. -/
theorem test_witness_LbcDomainErrors :
    idleState.phase ≠ .failed ∧ 64 < 65 ∧ 2 ^ 6 ≤ 0x40 ∧ 0x3F < 2 ^ 6 ∧ 6 ≤ 64 := by decide +kernel

/-- EccDetectsSingleAndDoubleErrors. -/
theorem test_witness_EccDetectsSingleAndDoubleErrors :
    0 < 39 ∧ 38 < 39 ∧ 0 < 38 := by decide +kernel

/-- LbcIsBijective. -/
theorem test_witness_LbcIsBijective :
    lbcEnc defaultConfig 5 3 4 1 = lbcEnc defaultConfig 5 3 4 1 ∧ (15 : DWord).toNat < 2 ^ 4 ∧
    sboxInvertible defaultTables.presentSbox = true := by decide +kernel

/-- RbcCallCompletes. -/
theorem test_witness_RbcCallCompletes :
    loadingState.phase ≠ .failed ∧ 10 % 2 = 0 ∧ 10 ≤ 10 ∧ 11 % 2 = 1 ∧ 10 < 12 ∧ 32 ≠ 64 ∧ 65 ≠ 64 := by decide +kernel

/-- RbcIsInjective. -/
theorem test_witness_RbcIsInjective :
    10 % 2 = 0 ∧ 10 ≤ 10 ∧ rbcEnc defaultTables 1 2 3 10 = rbcEnc defaultTables 1 2 3 10 := by decide +kernel

/-- A failed block meets the invariant. -/
theorem test_inv_failed : failedState.Inv where
  storeWf := by decide
  storeBound := by decide
  accLength := by decide
  failedFatal := by decide
  sizeOk := by decide
  configured := by decide
  nonceSplit := by decide
  slotBound := fun h => absurd rfl h
  idleBuffers := by decide

/-- FailedIsTerminal. -/
theorem test_witness_FailedIsTerminal :
    failedState.phase = .failed ∧ failedState.fatal = some ⟨.keyFormat, 15⟩ ∧ failedState.pending = [] ∧ failedState.Inv ∧
      ∃ t, { idleState with fatal := some ⟨.romSize, 0⟩, pending := [readRequest 0] }.fatal ≠ none ∧
        step { idleState with fatal := some ⟨.romSize, 0⟩, pending := [readRequest 0] } = .next t :=
  ⟨rfl, rfl, rfl, test_inv_failed, by
    obtain ⟨t, ht⟩ := exists_next
      (o := step { idleState with fatal := some ⟨.romSize, 0⟩, pending := [readRequest 0] }) (by decide +kernel)
    exact ⟨t, by decide, ht⟩⟩

/-- PhaseTransitions. -/
theorem test_witness_PhaseTransitions :
    (∃ t, exec .loadBegin keyedState = .next t) ∧ (∃ t, exec .loadEnd loadingState = .next t) ∧
    (∃ t, exec (.setKey []) idleState = .next t) ∧ ∃ t, exec .reset loadedState = .next t := ⟨exists_next (by decide +kernel), exists_next (by decide +kernel), exists_next (by decide +kernel),
    exists_next (by decide +kernel)⟩

/-- LogsOnlyGrow. -/
theorem test_witness_LogsOnlyGrow :
    ∃ t, step (placeRequest idleState (readRequest 0x48)) = .next t := exists_next (by decide +kernel)

/-- A load in progress meets the invariant. -/
theorem test_inv_loading : loadingState.Inv where
  storeWf := by decide
  storeBound := by decide
  accLength := by decide
  failedFatal := by decide
  sizeOk := by decide
  configured := by decide
  nonceSplit := by decide
  slotBound := fun _ v hv => by
    rw [List.eq_of_mem_replicate hv]
    decide
  idleBuffers := by decide

theorem test_witness_StepKeepsInvariant :
    (placeRequest loadingState (encode (.loadWord 5 0x6FDDD3DF50))).Inv ∧
      ∃ t, step (placeRequest loadingState (encode (.loadWord 5 0x6FDDD3DF50))) = .next t :=
  ⟨⟨test_inv_loading.1, test_inv_loading.2, test_inv_loading.3, test_inv_loading.4, test_inv_loading.5,
    test_inv_loading.6, test_inv_loading.7, test_inv_loading.8, test_inv_loading.9⟩, exists_next (by decide +kernel)⟩

theorem test_witness_CheckerErrorNeverStandsAlone :
    loadingState.Inv ∧ (loadingState.checkerError = true → loadingState.integrityError = true) ∧
      ∃ t, step loadingState = .next t :=
  ⟨test_inv_loading, by decide, exists_next (by decide +kernel)⟩

end Sys2Proof.Tests
end

section
/-! PROOF. Serving the oldest request (00_scope.md R15, R16). -/

namespace Sys2Proof.Machine

/-- Settles O4: the two cases of the queue, through what a step does with a request pending and with none. -/
theorem stepServesTheOldestRequest : Obligations.StepServesTheOldestRequest := by
  refine ⟨fun s r rest i hp hd => ?_, fun s hp hf => ?_⟩
  · exact step_cons hp hd
  · rw [step_nil hp, idleStep_none hf]

end Sys2Proof.Machine
end

section
/-! PROOF. The index width (00_scope.md R9) is the base-2 logarithm of `N − 1`, rounded up. -/

namespace Sys2Proof.Machine

/-- With fuel enough to reach it, the search from `w` on stops at `⌈log₂ n⌉`, or at `w` where that is larger. -/
theorem searchWidth_eq_max_clog (n fuel w : Nat) (h : Nat.clog 2 n ≤ w + fuel) :
    searchWidth n fuel w = max w (Nat.clog 2 n) := by
  induction fuel generalizing w with
  | zero => simpa [searchWidth] using h
  | succ fuel ih =>
    have hstop : n ≤ 2 ^ w ↔ Nat.clog 2 n ≤ w := (Nat.clog_le_iff_le_pow Nat.one_lt_two).symm
    rw [searchWidth]
    split
    next hn => exact (max_eq_left (hstop.1 hn)).symm
    next hn =>
      have hgt : w < Nat.clog 2 n := not_le.1 fun hle => hn (hstop.2 hle)
      rw [ih (w + 1) (by omega), max_eq_right hgt, max_eq_right hgt.le]

theorem indexWidth_eq_clog (c : Config) : indexWidth c = Nat.clog 2 (romWords c - 1) := by
  have hfuel : Nat.clog 2 (romWords c - 1) ≤ 0 + (romWords c - 1) := by
    rw [Nat.zero_add]
    exact Nat.clog_le_of_le_pow Nat.lt_two_pow_self.le
  rw [indexWidth, searchWidth_eq_max_clog _ _ _ hfuel, Nat.zero_max]

/-- `W` is at most `w` exactly where `w` bits are enough (00_scope.md R9). -/
theorem indexWidth_le_iff (c : Config) (w : Nat) : indexWidth c ≤ w ↔ romWords c - 1 ≤ 2 ^ w := by
  rw [indexWidth_eq_clog, Nat.clog_le_iff_le_pow Nat.one_lt_two]

/-- Settles O8: the search computes `⌈log₂ (N − 1)⌉`, and that is the least width; the examples evaluate it. -/
theorem indexWidthIsLeast : Obligations.IndexWidthIsLeast := by
  refine ⟨fun c => ⟨rfl, (indexWidth_le_iff c _).1 le_rfl, fun w => (indexWidth_le_iff c w).2⟩,
    fun c w hpow => ?_, fun c => ?_⟩
  · have hw : indexWidth c ≤ w := (indexWidth_le_iff c w).2 hpow.le
    rw [hpow]
    exact Nat.pow_le_pow_right Nat.two_pos hw
  · rw [indexWidth_eq_clog]
    refine ⟨?_, ?_, ?_, ?_, ?_, ?_, ?_⟩ <;> (intro hN; rw [hN]; rfl)

end Sys2Proof.Machine
end

section
/-! PROOF. The layers of the reflection block cipher undo each other (41_reflection_cipher.md R131 to R135). -/

namespace Sys2Proof.Machine

/-! ### Substitution -/

theorem sboxInvertible_princeSbox : sboxInvertible princeSbox = true := by decide

theorem rbcSubInv_rbcSub (x : DWord) : rbcSubInv defaultTables (rbcSub defaultTables x) = x :=
  subLayer_subLayer _ _ (fun n => (lookup_inverse sboxInvertible_princeSbox n).1) x

theorem rbcSub_rbcSubInv (x : DWord) : rbcSub defaultTables (rbcSubInv defaultTables x) = x :=
  subLayer_subLayer _ _ (fun n => (lookup_inverse sboxInvertible_princeSbox n).2) x

/-! ### Nibble permutation -/

/-- A 64-bit value is determined by its sixteen nibbles. -/
theorem eq_of_nib_eq {x y : DWord} (h : ∀ j < 16, nib x j = nib y j) : x = y := by
  apply BitVec.eq_of_getLsbD_eq
  intro i hi
  have hbit := congrArg (fun n => n.getLsbD (i % 4)) (h (i / 4) (by omega))
  have hlt : i % 4 < 4 := Nat.mod_lt i (by decide)
  simpa only [getLsbD_nib, hlt, decide_true, Bool.true_and, Nat.div_add_mod] using hbit

theorem nib_shiftRows (t : Tables) (x : DWord) (j : Nat) (h : j < 16) :
    nib (shiftRows t x) j = nib x (srIndex t j) := nib_ofNibbles _ j h

theorem nib_shiftRowsInv (t : Tables) (x : DWord) (j : Nat) (h : j < 16) :
    nib (shiftRowsInv t x) j = nib x (srInvIndex t j) := nib_ofNibbles _ j h

/-- SR_TABLE is a permutation of the sixteen positions, and `srInvIndex` is its inverse. -/
theorem srIndex_srInvIndex_inverse : ∀ j < 16,
    (srInvIndex defaultTables j < 16 ∧ srIndex defaultTables (srInvIndex defaultTables j) = j) ∧
    srIndex defaultTables j < 16 ∧ srInvIndex defaultTables (srIndex defaultTables j) = j := by decide

theorem shiftRowsInv_shiftRows (x : DWord) : shiftRowsInv defaultTables (shiftRows defaultTables x) = x := by
  apply eq_of_nib_eq
  intro j hj
  obtain ⟨⟨hlt, hinv⟩, -⟩ := srIndex_srInvIndex_inverse j hj
  rw [nib_shiftRowsInv _ _ _ hj, nib_shiftRows _ _ _ hlt, hinv]

theorem shiftRows_shiftRowsInv (x : DWord) : shiftRows defaultTables (shiftRowsInv defaultTables x) = x := by
  apply eq_of_nib_eq
  intro j hj
  obtain ⟨-, hlt, hinv⟩ := srIndex_srInvIndex_inverse j hj
  rw [nib_shiftRows _ _ _ hj, nib_shiftRowsInv _ _ _ hlt, hinv]

/-! ### Mixing

`MPRIME` mixes neither the lanes nor the bit positions of a nibble: bit `b` of an output nibble of lane `L` is a sum,
modulo 2, of the bits `b` of the lane's four nibbles. So it is sixteen linear maps on four bits, one for each `L` and
`b`, and each of them is an involution. -/

/-- Bit `b` of nibble `m` of lane `L`. -/
def laneBit (x : DWord) (L b m : Fin 4) : Bool := x.getLsbD (16 * L + (4 * m + b))

/-- Bit `b` of nibble `m` of lane `L` is in the sum for bit `b` of output nibble `n` of that lane
(`MPRIME_MASKS[L][n]`, 41_reflection_cipher.md R134). -/
def mixCoeff (t : Tables) (L b n m : Fin 4) : Bool :=
  (((t.mprimeMasks.toList.map Vector.toList).getD L []).getD n 0).getLsbD (4 * m + b)

/-- The sum of the bits of `y` that `a` selects. -/
def mixSum (y a : Fin 4 → Bool) : Bool := (y 0 && a 0) ^^ (y 1 && a 1) ^^ (y 2 && a 2) ^^ (y 3 && a 3)

theorem getLsbD_red16 (v : BitVec 16) (b : Nat) (hb : b < 4) :
    (red16 v).getLsbD b = (v.getLsbD b ^^ v.getLsbD (4 + b) ^^ v.getLsbD (8 + b) ^^ v.getLsbD (12 + b)) := by
  simp only [red16, BitVec.getLsbD_xor, getLsbD_nib, hb, decide_true, Bool.true_and, Nat.mul_zero, Nat.zero_add,
    Nat.mul_one, Nat.reduceMul, Bool.xor_assoc]

/-- A bit of `MPRIME`'s result (41_reflection_cipher.md R134). -/
theorem laneBit_mprime (t : Tables) (x : DWord) (L b n : Fin 4) :
    laneBit (mprime t x) L b n = mixSum (laneBit x L b) (mixCoeff t L b n) := by
  have hi : 16 * L.val + (4 * n.val + b.val) < 64 := by omega
  have hnib : (16 * L.val + (4 * n.val + b.val)) / 4 = 4 * L + n := by omega
  have hbit : (16 * L.val + (4 * n.val + b.val)) % 4 = b := by omega
  have hlane : (4 * L.val + n.val) / 4 = L := by omega
  have hrow : (4 * L.val + n.val) % 4 = n := by omega
  have h0 : b.val < 16 := by omega
  have h1 : 4 + b.val < 16 := by omega
  have h2 : 8 + b.val < 16 := by omega
  have h3 : 12 + b.val < 16 := by omega
  simp only [laneBit, mprime, getLsbD_ofNibbles, hi, hnib, hbit, hlane, hrow, decide_true, Bool.true_and]
  rw [getLsbD_red16 _ _ b.isLt]
  simp [mixSum, mixCoeff, laneBit, h0, h1, h2, h3]

/-- Each of the sixteen maps on four bits is an involution. -/
theorem mixSum_mixSum : ∀ (L b n : Fin 4) (y : Fin 4 → Bool),
    mixSum (fun m => mixSum y (mixCoeff defaultTables L b m)) (mixCoeff defaultTables L b n) = y n := by decide

/-- A 64-bit value is determined by the bits of its lanes. -/
theorem eq_of_laneBit_eq {x y : DWord} (h : ∀ L b n, laneBit x L b n = laneBit y L b n) : x = y := by
  apply BitVec.eq_of_getLsbD_eq
  intro i hi
  have hsplit : 16 * (i / 16) + (4 * (i / 4 % 4) + i % 4) = i := by omega
  simpa only [laneBit, hsplit] using h ⟨i / 16, by omega⟩ ⟨i % 4, by omega⟩ ⟨i / 4 % 4, by omega⟩

theorem mprime_mprime (x : DWord) : mprime defaultTables (mprime defaultTables x) = x := by
  apply eq_of_laneBit_eq
  intro L b n
  calc laneBit (mprime defaultTables (mprime defaultTables x)) L b n
      = mixSum (laneBit (mprime defaultTables x) L b) (mixCoeff defaultTables L b n) := laneBit_mprime ..
    _ = mixSum (fun m => mixSum (laneBit x L b) (mixCoeff defaultTables L b m)) (mixCoeff defaultTables L b n) := by
        rw [funext (laneBit_mprime defaultTables x L b)]
    _ = laneBit x L b n := mixSum_mixSum L b n _

end Sys2Proof.Machine
end

section
/-! PROOF. RBC.ENC is injective in its data: it is composed of layers that can be undone and of exclusive-ors with
keys and constants (41_reflection_cipher.md R139). -/

namespace Sys2Proof.Machine

open Function

/-! ### The layers -/

theorem xor_const_injective (k : DWord) : Injective (· ^^^ k) := fun _ _ => (BitVec.xor_left_inj k).1

theorem rbcSub_injective : Injective (rbcSub defaultTables) := LeftInverse.injective rbcSubInv_rbcSub

theorem rbcSubInv_injective : Injective (rbcSubInv defaultTables) := LeftInverse.injective rbcSub_rbcSubInv

theorem mprime_injective : Injective (mprime defaultTables) := LeftInverse.injective mprime_mprime

theorem shiftRows_injective : Injective (shiftRows defaultTables) := LeftInverse.injective shiftRowsInv_shiftRows

theorem shiftRowsInv_injective : Injective (shiftRowsInv defaultTables) :=
  LeftInverse.injective shiftRows_shiftRowsInv

/-! ### The rounds -/

section Rounds

variable (k0 k1 : DWord)

theorem rbcForwardRound_injective (k : Nat) : Injective (rbcForwardRound defaultTables k0 k1 k) :=
  (xor_const_injective _).comp <| (xor_const_injective _).comp <|
    shiftRows_injective.comp <| mprime_injective.comp rbcSub_injective

theorem rbcMiddle_injective : Injective (rbcMiddle defaultTables) :=
  rbcSubInv_injective.comp <| mprime_injective.comp rbcSub_injective

theorem rbcBackwardRound_injective (h k : Nat) : Injective (rbcBackwardRound defaultTables k0 k1 h k) :=
  rbcSubInv_injective.comp <| mprime_injective.comp <| shiftRowsInv_injective.comp <|
    (xor_const_injective _).comp (xor_const_injective _)

theorem rbcForward_injective (n : Nat) : Injective (rbcForward defaultTables k0 k1 n) := by
  induction n with
  | zero => exact injective_id
  | succ n ih => exact (rbcForwardRound_injective k0 k1 (n + 1)).comp ih

theorem rbcBackward_injective (h n : Nat) : Injective (rbcBackward defaultTables k0 k1 h n) := by
  induction n with
  | zero => exact injective_id
  | succ n ih => exact (rbcBackwardRound_injective k0 k1 h (n + 1)).comp ih

/-- The cipher is injective in its data, whatever the keys and the number of rounds. -/
theorem rbcEnc_injective (rounds : Nat) : Injective fun data => rbcEnc defaultTables data k1 k0 rounds := by
  have whitenIn : Injective fun data : DWord => data ^^^ k0 ^^^ k1 ^^^ roundConstant defaultTables 0 :=
    (xor_const_injective _).comp <| (xor_const_injective _).comp (xor_const_injective _)
  have whitenOut : Injective fun s : DWord => s ^^^ k1 ^^^ roundConstant defaultTables 11 ^^^ reflectedKey k0 :=
    (xor_const_injective _).comp <| (xor_const_injective _).comp (xor_const_injective _)
  exact whitenOut.comp <| (rbcBackward_injective k0 k1 _ _).comp <| rbcMiddle_injective.comp <|
    (rbcForward_injective k0 k1 _).comp whitenIn

end Rounds

/-- Settles O52: the cipher is a composition of injective layers; the bound on the rounds is not needed. -/
theorem rbcIsInjective : Obligations.RbcIsInjective :=
  fun _ _ k1 k0 rounds _ _ henc => rbcEnc_injective k0 k1 rounds henc

end Sys2Proof.Machine
end

section
/-! PROOF. The state at construction (10_state.md R36): its values for an admitted ROM_BYTES, and the invariant for every
ROM_BYTES. -/

namespace Sys2Proof.Machine

/-- ROM_BYTES is admitted above 32 and divisible by 4 (00_scope.md R7, 60_exceptions.md R251). -/
theorem romSizeOk_iff (c : Config) : romSizeOk c = true ↔ 32 < c.romBytes ∧ c.romBytes % 4 = 0 := by
  simp [romSizeOk]

/-- Settles O6: an admitted size selects the Idle branch of construction; every other field is given outright. -/
theorem powerOnValues : Obligations.PowerOnValues := by
  intro c hmin hdiv
  have hok : romSizeOk c = true := (romSizeOk_iff c).2 ⟨hmin, hdiv⟩
  refine ⟨if_pos hok, rfl, rfl, rfl, fun j => ?_, rfl, rfl, rfl, if_pos hok, rfl, rfl⟩
  simp [State.construct]

/-- Construction is Failed with a record, or Idle without one, as the size is refused or admitted. -/
theorem inv_construct (c : Config) : (State.construct c).Inv where
  storeWf := .nil
  storeBound := fun _ he => absurd he List.not_mem_nil
  accLength := List.length_replicate
  failedFatal := by cases hok : romSizeOk c <;> simp [State.construct, hok]
  sizeOk := by cases hok : romSizeOk c <;> simp [State.construct, hok]
  configured := by cases hok : romSizeOk c <;> simp [State.construct, hok]
  nonceSplit := fun hset => absurd hset Bool.false_ne_true
  slotBound := fun _ v hv => by
    rw [List.eq_of_mem_replicate hv]
    decide
  idleBuffers := fun _ => ⟨rfl, rfl⟩

/-- Settles O59: reset is construction with the default configuration. -/
theorem invariantHoldsAtConstruction : Obligations.InvariantHoldsAtConstruction :=
  ⟨inv_construct, inv_construct defaultConfig⟩

end Sys2Proof.Machine
end

section
/-! PROOF. Every step keeps the invariant: one lemma per update of the state, then the list of an operation's effects. -/

namespace Sys2Proof.Machine

variable {i : Instr} {s t : State}

/-! ### What the invariant says outside Failed -/

theorem inv_fatal_none (h : s.Inv) (hp : s.phase ≠ .failed) : s.fatal = none :=
  not_not.1 fun hf => hp (h.failedFatal.2 hf)

/-! ### Updates of fields the invariant does not speak of -/

theorem inv_withPending (h : s.Inv) (rs : List Request) : (withPending s rs).Inv := { h with }

theorem inv_respond (h : s.Inv) (a : Response) : (respond s a).Inv := { h with }

theorem inv_warn (h : s.Inv) (code : WarningCode) (info : Nat) : (warn s code info).Inv := { h with }

theorem inv_alertTest (h : s.Inv) : (alertTest s).Inv := by
  rw [alertTest_eq]
  exact { h with }

theorem inv_resetFlags (h : s.Inv) (mismatch : Bool) : (resetFlags s mismatch).Inv := { h with }

theorem inv_checkDecoded (h : s.Inv) (idx : Nat) (plain : Codeword) : (checkDecoded s idx plain).Inv := by
  rw [checkDecoded_eq]
  exact { h with }

/-! ### Fatal errors -/

/-- In Failed the invariant asks nothing of the slots' values, so a fatal error may follow a payload that is too wide. -/
theorem inv_raiseFatal (wf : s.store.wf) (bound : ∀ e ∈ s.store, e.1 < s.cfg.romBytes)
    (accLength : s.acc.length = payloadWords s.cfg)
    (nonceSplit : s.nonceSet = true →
      s.addrKey = splitAddrKey s.cfg s.nonce ∧ s.dataNonce = splitDataNonce s.cfg s.nonce)
    (code : FatalCode) (info : Nat) : (raiseFatal s code info).Inv where
  storeWf := wf
  storeBound := bound
  accLength := accLength
  failedFatal := by simp
  sizeOk := fun hp => absurd rfl hp
  configured := by simp
  nonceSplit := nonceSplit
  slotBound := fun hp => absurd rfl hp
  idleBuffers := by simp

/-! ### Configuration -/

theorem inv_setKeyRegs (h : s.Inv) (k0 k1 : DWord) : (setKeyRegs s k0 k1).Inv :=
  { h with configured := fun hp => ⟨rfl, (h.configured hp).2⟩ }

theorem inv_setNonceRegs (h : s.Inv) (nonce : DWord) :
    (setNonceRegs s nonce (splitAddrKey s.cfg nonce) (splitDataNonce s.cfg nonce)).Inv :=
  { h with
    configured := fun hp => ⟨(h.configured hp).1, rfl⟩
    nonceSplit := fun _ => ⟨rfl, rfl⟩ }

/-! ### The load -/

theorem inv_beginLoad (h : s.Inv) (idle : s.phase = .idle) (key : s.keySet = true) (nonce : s.nonceSet = true) :
    (beginLoad s).Inv :=
  have admitted : s.phase ≠ .failed := by simp [idle]
  { h with
    accLength := List.length_replicate
    failedFatal := by simp [inv_fatal_none h admitted]
    sizeOk := fun _ => h.sizeOk admitted
    configured := fun _ => ⟨key, nonce⟩
    slotBound := fun _ v hv => by
      rw [List.eq_of_mem_replicate hv]
      decide
    idleBuffers := by simp }

@[simp] theorem length_acc_recordPayload (s : State) (idx : Nat) (spay : DWord) :
    (recordPayload s idx spay).acc.length = s.acc.length := by
  rw [recordPayload_acc]
  split
  · rfl
  · exact List.length_set

/-- A slot holds what it held, or the payload recorded. -/
theorem mem_acc_recordPayload {idx : Nat} {spay v : DWord} (hv : v ∈ (recordPayload s idx spay).acc) :
    v ∈ s.acc ∨ v = spay := by
  rw [recordPayload_acc] at hv
  split at hv
  · exact .inl hv
  · exact List.mem_or_eq_of_mem_set hv

theorem inv_recordPayload (h : s.Inv) (loading : s.phase = .loading) (idx : Nat) {spay : DWord}
    (hspay : spay.toNat < 2 ^ 39) : (recordPayload s idx spay).Inv where
  storeWf := by simpa using h.storeWf
  storeBound := by simpa using h.storeBound
  accLength := by simpa using h.accLength
  failedFatal := by simpa using h.failedFatal
  sizeOk := by simpa using h.sizeOk
  configured := by simpa using h.configured
  nonceSplit := by simpa using h.nonceSplit
  slotBound := fun hp v hv => by
    obtain hold | rfl := mem_acc_recordPayload hv
    · exact h.slotBound (by simpa using hp) v hold
    · exact hspay
  idleBuffers := by simp [loading]

/-- A payload that is too wide stands in its slot, and the block has failed (60_exceptions.md R250, R257). -/
theorem inv_raiseFatal_recordPayload (h : s.Inv) (idx : Nat) (spay : DWord) (code : FatalCode) (info : Nat) :
    (raiseFatal (recordPayload s idx spay) code info).Inv :=
  inv_raiseFatal (by simpa using h.storeWf) (by simpa using h.storeBound)
    (by simpa using h.accLength) (by simpa using h.nonceSplit) code info

theorem inv_withStore (h : s.Inv) {m : Memory} (wf : m.wf) (bound : ∀ e ∈ m, e.1 < s.cfg.romBytes) :
    (withStore s m).Inv :=
  { h with storeWf := wf, storeBound := bound }

/-- Step 5 of LOAD.WORD lets through payloads below 2^39 only (43_descrambling_pipeline.md R190). -/
theorem toNat_lt_of_decodePayload {idx : Nat} {spay : DWord} {plain : Codeword}
    (hd : decodePayload s idx spay = some plain) : spay.toNat < 2 ^ 39 := by
  by_contra hwide
  rw [decodePayload_none s idx (not_lt.1 hwide)] at hd
  cases hd

/-- LOAD.WORD: the slot, the warning and the word in the store (43_descrambling_pipeline.md R187 to R190). -/
theorem inv_loadWord (h : s.Inv) (loading : s.phase = .loading) {idx : Nat} {spay : DWord} {plain : Codeword}
    (payload : decodePayload (recordPayload s idx spay) idx spay = some plain)
    (inside : idx * 4 + 4 ≤ s.cfg.romBytes) (v : Word) :
    (withStore (checkDecoded (recordPayload s idx spay) idx plain)
      (s.store.writeBytes (idx * 4) (storeBytes s.cfg v))).Inv := by
  have recorded := inv_recordPayload h loading idx (toNat_lt_of_decodePayload payload)
  refine inv_withStore (inv_checkDecoded recorded idx plain) (Memory.writeBytes_wf _ _ _ h.storeWf) ?_
  have bound := Memory.writeBytes_bound _ _ _ (storeBytes s.cfg v) h.storeBound (by simpa using inside)
  simpa [checkDecoded_eq] using bound

theorem inv_finishLoad (h : s.Inv) (loading : s.phase = .loading) : (finishLoad s).Inv :=
  have admitted : s.phase ≠ .failed := by simp [loading]
  { h with
    failedFatal := by simp [finishLoad, inv_fatal_none h admitted]
    sizeOk := fun _ => h.sizeOk admitted
    configured := fun _ => h.configured (.inl loading)
    slotBound := fun _ => h.slotBound admitted
    idleBuffers := by simp [finishLoad] }

/-! ### Every operation -/

theorem effect_inv (h : s.Inv) (e : Effect i s t) : t.Inv := by
  have fatal (code : FatalCode) (info : Nat) : (raiseFatal s code info).Inv :=
    inv_raiseFatal h.storeWf h.storeBound h.accLength h.nonceSplit code info
  cases e with
  | same => exact h
  | read => exact inv_respond h _
  | readUnknown => exact inv_respond (inv_warn h _ _) _
  | writeUnknown => exact inv_warn h _ _
  | test => exact inv_alertTest h
  | keyFormat => exact fatal _ _
  | setKey => exact inv_setKeyRegs h _ _
  | nonceFormat => exact fatal _ _
  | setNonce => exact inv_setNonceRegs h _
  | loadBegin idle key nonce => exact inv_beginLoad h idle key nonce
  | indexFatal => exact fatal _ _
  | payloadFatal => exact inv_raiseFatal_recordPayload h _ _ _ _
  | loadWord _ _ _ _ loading _ _ payload inside => exact inv_loadWord h loading payload inside _
  | loadEnd loading => exact inv_finishLoad h loading
  | reset => exact inv_resetFlags h _
  | primitive => exact inv_respond h _

/-- Settles O60: a step changes nothing, or is an operation on the state without the request it serves. -/
theorem stepKeepsInvariant : Obligations.StepKeepsInvariant := by
  intro s t h hstep
  obtain ⟨-, -, rfl⟩ | ⟨_, rest, _, -, -, heffect⟩ := step_next hstep
  · exact h
  · exact effect_inv (inv_withPending h rest) heffect

end Sys2Proof.Machine
end

section
/-! PROOF. What a step keeps of the phase, the key and nonce, and the logs (10_state.md R23 to R25, R33, R34). -/

namespace Sys2Proof.Machine

variable {i : Instr} {s t : State}

/-! ### The phase -/

/-- Settles O56: only LOAD.BEGIN, LOAD.END and the four fatal errors write the phase. -/
theorem phaseTransitions : Obligations.PhaseTransitions := by
  intro i s t h
  cases exec_next h with
  | loadBegin idle _ _ op => exact .inr (.inl ⟨op, idle, rfl⟩)
  | loadEnd loading op => exact .inr (.inr (.inl ⟨op, loading, rfl⟩))
  | keyFormat _ idle | nonceFormat _ idle => exact .inr (.inr (.inr ⟨.inl idle, rfl, by simp⟩))
  | indexFatal _ _ _ _ loading | payloadFatal _ _ _ loading => exact .inr (.inr (.inr ⟨.inr loading, rfl, by simp⟩))
  | _ => exact .inl (by simp [alertTest_eq, checkDecoded_eq])

/-! ### Key and nonce -/

/-- SETKEY is admitted only while no key is set, and nothing else writes one (10_state.md R24). -/
theorem effect_key (e : Effect i s t) (hset : s.keySet = true) : t.keySet = true ∧ t.k0 = s.k0 ∧ t.k1 = s.k1 := by
  cases e with
  | setKey _ _ unset => simp [unset] at hset
  | _ => simp [hset, alertTest_eq, checkDecoded_eq, finishLoad]

/-- SETNONCE is admitted only while no nonce is set, and nothing else writes one (10_state.md R25). -/
theorem effect_nonce (e : Effect i s t) (hset : s.nonceSet = true) :
    t.nonceSet = true ∧ t.nonce = s.nonce ∧ t.addrKey = s.addrKey ∧ t.dataNonce = s.dataNonce := by
  cases e with
  | setNonce _ _ _ unset => simp [unset] at hset
  | _ => simp [hset, alertTest_eq, checkDecoded_eq, finishLoad]

/-- Settles O27: taking a request touches neither, and no operation writes one that is set. -/
theorem keyAndNonceAreImmutableOnceSet : Obligations.KeyAndNonceAreImmutableOnceSet := by
  intro s t hstep
  obtain ⟨-, -, rfl⟩ | ⟨_, _, _, -, -, heffect⟩ := step_next hstep
  · exact ⟨fun hset => ⟨hset, rfl, rfl⟩, fun hset => ⟨hset, rfl, rfl, rfl⟩⟩
  · exact ⟨by simpa using effect_key heffect, by simpa using effect_nonce heffect⟩

/-! ### The logs -/

/-- Only the alert test writes the count, and it adds one or nothing (10_state.md R34). -/
theorem effect_alertEvents_le (e : Effect i s t) : s.alertEvents ≤ t.alertEvents := by
  cases e with
  | test =>
    simp only [alertTest_eq]
    split <;> omega
  | _ => simp [checkDecoded_eq, finishLoad]

/-- Only accesses to unknown offsets and LOAD.WORD warn, at the end of the log (10_state.md R33). -/
theorem effect_warnings (e : Effect i s t) : ∃ out, t.warnings = s.warnings ++ out := by
  cases e with
  | readUnknown | writeUnknown => exact ⟨_, rfl⟩
  | loadWord _ spay idx plain =>
    obtain hc | hc := checkDecoded_cases (recordPayload s idx spay) idx plain
    · exact ⟨[], by simp [hc]⟩
    · exact ⟨[⟨.ecc, idx⟩], by simp [hc]⟩
  | _ => exact ⟨[], by simp [alertTest_eq, finishLoad]⟩

/-- Only reads and primitive calls answer, at the end of the log. -/
theorem effect_responses (e : Effect i s t) : ∃ out, t.responses = s.responses ++ out := by
  cases e with
  | read | readUnknown | primitive => exact ⟨_, rfl⟩
  | _ => exact ⟨[], by simp [alertTest_eq, checkDecoded_eq, finishLoad]⟩

/-- Settles O57: a step takes the oldest request, and its operation only adds to the logs. -/
theorem logsOnlyGrow : Obligations.LogsOnlyGrow := by
  intro s t hstep
  obtain ⟨hnil, -, rfl⟩ | ⟨_, rest, _, hcons, -, heffect⟩ := step_next hstep
  · exact ⟨rfl, by simp [hnil], le_rfl, ⟨[], by simp⟩, ⟨[], by simp⟩⟩
  · have htail : t.pending = s.pending.tail := by simp [effect_pending heffect, hcons]
    exact ⟨by simpa using effect_cfg heffect, htail, by simpa using effect_alertEvents_le heffect,
      by simpa using effect_warnings heffect, by simpa using effect_responses heffect⟩

end Sys2Proof.Machine
end

section
/-! PROOF. A bus access reveals the flags and the digest buffers and nothing else (10_state.md R37,
44_register_interface.md R248): two runs of one access, from states that agree on these. -/

namespace Sys2Proof.Machine

/-- The two states agree on what a bus access may reveal. -/
structure SameBusView (s t : State) : Prop where
  phase : s.phase = t.phase
  checkerError : s.checkerError = t.checkerError
  integrityError : s.integrityError = t.integrityError
  observed : s.observed = t.observed
  expected : s.expected = t.expected

/-- From two states an operation returns the same values and leaves flags that agree, where it gives a next state. -/
def AnswersAlike (op : State → StepResult) (s t : State) : Prop :=
  ∀ s', op s = .next s' → ∃ t', op t = .next t' ∧ s'.checkerError = t'.checkerError ∧
    s'.integrityError = t'.integrityError ∧
    ∃ out, s'.responses = s.responses ++ out ∧ t'.responses = t.responses ++ out

variable {i : Instr} {s t : State}

/-- A bus access is admitted in both states or in neither, so its two next states decide. -/
theorem answersAlike_admitBus (view : SameBusView s t) (next : State → State)
    (hchecker : (next s).checkerError = (next t).checkerError)
    (hintegrity : (next s).integrityError = (next t).integrityError) (out : List Response)
    (hs : (next s).responses = s.responses ++ out) (ht : (next t).responses = t.responses ++ out) :
    AnswersAlike (fun s => admitBus s fun s => .next (next s)) s t := by
  intro s' h
  obtain ⟨admitted, h⟩ := admitBus_next h
  cases h
  exact ⟨next t, admitBus_admitted (view.phase ▸ admitted), hchecker, hintegrity, out, hs, ht⟩

theorem answersAlike_busRead (view : SameBusView s t) (v : State → Word) (hv : v s = v t) :
    AnswersAlike (fun s => busRead s v) s t :=
  answersAlike_admitBus view (fun s => respond s (.rdata (v s))) view.checkerError view.integrityError [.rdata (v s)]
    rfl (by rw [respond_responses, hv])

theorem answersAlike_busIgnore (view : SameBusView s t) : AnswersAlike busIgnore s t :=
  answersAlike_admitBus view id view.checkerError view.integrityError [] (by simp) (by simp)

theorem answersAlike_rdUnknown (view : SameBusView s t) (offset : Word) : AnswersAlike (execRdUnknown offset) s t :=
  answersAlike_admitBus view _ view.checkerError view.integrityError [.rdata 0] rfl rfl

theorem answersAlike_wrUnknown (view : SameBusView s t) (offset wdata : Word) :
    AnswersAlike (execWrUnknown offset wdata) s t :=
  answersAlike_admitBus view (fun s => warn s .unknownOffset offset.toNat) view.checkerError view.integrityError []
    (by simp) (by simp)

/-- With bit 0 set both flags are set in both states, with it clear both keep theirs (44_register_interface.md R211). -/
theorem answersAlike_wrAlertTest (view : SameBusView s t) (wdata : Word) :
    AnswersAlike (execWrAlertTest wdata) s t := by
  refine answersAlike_admitBus view (fun s => if wdata.getLsbD 0 then alertTest s else s) ?_ ?_ [] ?_ ?_ <;>
    cases wdata.getLsbD 0 <;> simp [alertTest_eq, view.checkerError, view.integrityError]

/-- The cause register reads the two flags (44_register_interface.md R212). -/
theorem fatalAlertCause_eq_of_sameBusView (view : SameBusView s t) : fatalAlertCause s = fatalAlertCause t := by
  rw [fatalAlertCause, fatalAlertCause, view.checkerError, view.integrityError]

/-- Every row of the bus table is a read of one of these registers, an ignored write, or an access above. -/
theorem answersAlike_of_bus (view : SameBusView s t) (bus : i.format = .bus) : AnswersAlike (exec i) s t := by
  cases i
  case rdAlertTest => exact answersAlike_busRead view _ rfl
  case rdFatalAlertCause => exact answersAlike_busRead view _ (fatalAlertCause_eq_of_sameBusView view)
  case rdDigest0 | rdDigest1 | rdDigest2 | rdDigest3 | rdDigest4 | rdDigest5 | rdDigest6 | rdDigest7 =>
    exact answersAlike_busRead view _ (by rw [view.observed])
  case rdExpectedDigest0 | rdExpectedDigest1 | rdExpectedDigest2 | rdExpectedDigest3 | rdExpectedDigest4 |
      rdExpectedDigest5 | rdExpectedDigest6 | rdExpectedDigest7 =>
    exact answersAlike_busRead view _ (by rw [view.expected])
  case wrFatalAlertCause | wrDigest0 | wrDigest1 | wrDigest2 | wrDigest3 | wrDigest4 | wrDigest5 | wrDigest6 |
      wrDigest7 | wrExpectedDigest0 | wrExpectedDigest1 | wrExpectedDigest2 | wrExpectedDigest3 | wrExpectedDigest4 |
      wrExpectedDigest5 | wrExpectedDigest6 | wrExpectedDigest7 =>
    exact answersAlike_busIgnore view
  case wrAlertTest wdata => exact answersAlike_wrAlertTest view wdata
  case rdUnknown offset => exact answersAlike_rdUnknown view offset
  case wrUnknown offset wdata => exact answersAlike_wrUnknown view offset wdata
  case setKey | setNonce | loadBegin | loadWord | loadEnd | reset | lbcEnc | lbcDec | rbcEnc | eccAdd | eccChk =>
    cases bus

/-- Settles O19: what a bus access reads and writes of the flags lies in the view the two states share. -/
theorem busAccessRevealsOnlyFlagsAndDigests : Obligations.BusAccessRevealsOnlyFlagsAndDigests :=
  fun _ _ _ s' bus phase checkerError integrityError observed expected =>
    answersAlike_of_bus ⟨phase, checkerError, integrityError, observed, expected⟩ bus s'

end Sys2Proof.Machine
end

section
/-! PROOF. Which request a step serves and how it is read: requests that are no operation (20_memory.md R55,
30_encoding.md R85), and bus accesses to offsets outside the register map (20_memory.md R56). -/

namespace Sys2Proof.Machine

/-! ### Requests that are no operation -/

/-- A step with a request pending that is no operation. -/
theorem step_cons_error {s : State} {r : Request} {rest : List Request} {e : DecodeError}
    (hp : s.pending = r :: rest) (hd : decode r = .error e) : step s = refuseUndecoded e (withPending s rest) := by
  simp [step, nextRequest_cons hp, hd]

theorem decode_bus_narrow {width : Nat} (hw : width ≠ 32) (descriptor : BitVec 33) (x : Operands) :
    decode (.bus width descriptor x) = .error .narrowAccess := if_neg hw

theorem decodeHost_eq_none {id : Byte} (h : id ∉ [0x01, 0x02, 0x10, 0x11, 0x12, 0x20]) (x : Operands) :
    decodeHost id x = none := by
  simp only [List.mem_cons, List.not_mem_nil, or_false, not_or] at h
  simp only [decodeHost, h, if_false]

theorem decodePrim_eq_none {id : Byte} (h : id ∉ [0x40, 0x41, 0x50, 0x60, 0x61]) (x : Operands) :
    decodePrim id x = none := by
  simp only [List.mem_cons, List.not_mem_nil, or_false, not_or] at h
  simp only [decodePrim, h, if_false]

/-- A narrow access is refused by name where the bus is admitted; BUS_NARROW has no other value (20_memory.md R55). -/
theorem refuseUndecoded_narrowAccess (s : State) :
    refuseUndecoded .narrowAccess s = admitBus s fun _ => .refused .narrowAccess := rfl

/-- Settles O5: such a request decodes to an error, and the error alone, or the phase before it, gives the refusal. -/
theorem undecodableRequestsAreRefused : Obligations.UndecodableRequestsAreRefused := by
  refine ⟨fun s width descriptor x rest hw hp => ?_, fun s id x rest hid hp => ?_, fun s id x rest hid hp => ?_⟩
  · rw [step_cons_error hp (decode_bus_narrow hw descriptor x), refuseUndecoded_narrowAccess]
    exact ⟨admitBus_admitted (s := withPending s rest), admitBus_loading (s := withPending s rest),
      admitBus_failed (s := withPending s rest)⟩
  · exact step_cons_error (e := .unknownOperation) hp (by simp only [decode, decodeHost_eq_none hid])
  · exact step_cons_error (e := .unknownOperation) hp (by simp only [decode, decodePrim_eq_none hid])

/-! ### Descriptors -/

@[simp] theorem descriptorIsWrite_append (dir : BitVec 1) (offset : Word) :
    descriptorIsWrite (dir ++ offset) = dir.getLsbD 0 := BitVec.getLsbD_append

@[simp] theorem descriptorOffset_append (dir : BitVec 1) (offset : Word) :
    descriptorOffset (dir ++ offset) = offset := BitVec.extractLsb'_append_eq_right

/-! ### Offsets outside the register map -/

/-- Every exact row stands at an offset of the register map (30_encoding.md R72). -/
theorem isRegisterOffset_of_mem_busRows : ∀ r ∈ busRows, isRegisterOffset (descriptorOffset r.descriptor) = true := by
  decide

/-- No exact row has an offset outside the register map, so the default row of the direction is selected. -/
theorem decodeBus_of_unmapped {descriptor : BitVec 33}
    (h : isRegisterOffset (descriptorOffset descriptor) = false) (wdata : Word) :
    decodeBus descriptor wdata =
      if descriptorIsWrite descriptor then .wrUnknown (descriptorOffset descriptor) wdata
      else .rdUnknown (descriptorOffset descriptor) := by
  have hnone : busRows.find? (fun r => r.descriptor == descriptor) = none := by
    refine List.find?_eq_none.2 fun r hr heq => ?_
    have hmapped := isRegisterOffset_of_mem_busRows r hr
    rw [eq_of_beq heq, h] at hmapped
    cases hmapped
  rw [decodeBus, hnone]

theorem decode_readRequest_of_unmapped {offset : Word} (h : isRegisterOffset offset = false) :
    decode (readRequest offset) = .ok (.rdUnknown offset) := by
  simp [decode, readRequest, decodeBus_of_unmapped, h]

theorem decode_writeRequest_of_unmapped {offset : Word} (h : isRegisterOffset offset = false) (wdata : Word) :
    decode (writeRequest offset wdata) = .ok (.wrUnknown offset wdata) := by
  simp [decode, writeRequest, decodeBus_of_unmapped, h]

/-- The register map holds multiples of 4 only (20_memory.md R54, R56). -/
theorem isRegisterOffset_of_misaligned {offset : Word} (h : offset.toNat % 4 ≠ 0) : isRegisterOffset offset = false := by
  simp [isRegisterOffset, h]

theorem exec_rdUnknown (offset : Word) (s : State) : exec (.rdUnknown offset) s =
    admitBus s fun s => .next (respond (warn s .unknownOffset offset.toNat) (.rdata 0)) := rfl

theorem exec_wrUnknown (offset wdata : Word) (s : State) : exec (.wrUnknown offset wdata) s =
    admitBus s fun s => .next (warn s .unknownOffset offset.toNat) := rfl

/-- Settles O16: a misaligned offset is in no exact row, and the default rows are admitted. -/
theorem misalignedOffsetIsUnknown : Obligations.MisalignedOffsetIsUnknown := by
  intro s offset w rest hmis hphase
  have hunmapped := isRegisterOffset_of_misaligned hmis
  refine ⟨fun hp => ?_, fun hp => ?_⟩
  · rw [step_cons hp (decode_readRequest_of_unmapped hunmapped), exec_rdUnknown,
      admitBus_admitted (s := withPending s rest) hphase]
    rfl
  · rw [step_cons hp (decode_writeRequest_of_unmapped hunmapped w), exec_wrUnknown,
      admitBus_admitted (s := withPending s rest) hphase]
    rfl

end Sys2Proof.Machine
end

section
/-! PROOF. The side effects of bus accesses (20_memory.md R57, R58): a read only returns a value, a write other than an
alert test is ignored. -/

namespace Sys2Proof.Machine

variable {i : Instr} {s t : State}

/-! ### Reads -/

/-- The operation reads a register of the map: it returns `v` of the state, which no returned value changes. -/
structure ReadsRegister (i : Instr) (v : State → Word) : Prop where
  exec_eq : ∀ s, exec i s = busRead s v
  mapped : ∀ offset, i ≠ .rdUnknown offset
  stable : ∀ s a, v (respond s a) = v s

/-- Every read of the bus table is the default row or reads a register. (Without `reduceAppend` a row's descriptor stays
`dir ++ offset`, of which `descriptorIsWrite_append` reads the direction.) -/
theorem rdUnknown_or_readsRegister (h : isBusRead i = true) :
    (∃ offset, i = .rdUnknown offset) ∨ ∃ v, ReadsRegister i v := by
  cases i
  case rdUnknown offset => exact .inl ⟨offset, rfl⟩
  case rdAlertTest | rdFatalAlertCause | rdDigest0 | rdDigest1 | rdDigest2 | rdDigest3 | rdDigest4 | rdDigest5 |
      rdDigest6 | rdDigest7 | rdExpectedDigest0 | rdExpectedDigest1 | rdExpectedDigest2 | rdExpectedDigest3 |
      rdExpectedDigest4 | rdExpectedDigest5 | rdExpectedDigest6 | rdExpectedDigest7 =>
    exact .inr ⟨_, fun _ => rfl, fun _ => nofun, fun _ _ => rfl⟩
  all_goals simp [isBusRead, encode, writeRequest, -BitVec.reduceAppend] at h

/-- Settles O17: a register's value does not depend on what reads leave behind, and an unknown offset reads 0. -/
theorem busReadsHaveNoSideEffect : Obligations.BusReadsHaveNoSideEffect := by
  intro i s t hread h
  obtain ⟨offset, rfl⟩ | ⟨v, reg⟩ := rdUnknown_or_readsRegister hread
  · obtain ⟨hphase, h⟩ := admitBus_next (exec_rdUnknown offset s ▸ h)
    cases h
    exact ⟨0, rfl, rfl, fun hne => absurd rfl (hne offset), fun _ heq => by cases heq; rfl,
      _, (exec_rdUnknown offset _).trans (admitBus_admitted hphase), rfl⟩
  · obtain ⟨hphase, rfl⟩ := busRead_next (reg.exec_eq s ▸ h)
    refine ⟨v s, rfl, rfl, fun _ => rfl, fun offset heq => absurd heq (reg.mapped offset), _,
      (reg.exec_eq _).trans (busRead_admitted hphase), ?_⟩
    rw [reg.stable]
    rfl

/-! ### Writes -/

/-- Every write of the bus table is the alert test, the default row, or ignored. -/
theorem busWrite_cases (h : isBusWrite i = true) :
    (∃ wdata, i = .wrAlertTest wdata) ∨ (∃ offset wdata, i = .wrUnknown offset wdata) ∨ ∀ s, exec i s = busIgnore s := by
  cases i
  case wrAlertTest wdata => exact .inl ⟨wdata, rfl⟩
  case wrUnknown offset wdata => exact .inr (.inl ⟨offset, wdata, rfl⟩)
  case wrFatalAlertCause | wrDigest0 | wrDigest1 | wrDigest2 | wrDigest3 | wrDigest4 | wrDigest5 | wrDigest6 |
      wrDigest7 | wrExpectedDigest0 | wrExpectedDigest1 | wrExpectedDigest2 | wrExpectedDigest3 | wrExpectedDigest4 |
      wrExpectedDigest5 | wrExpectedDigest6 | wrExpectedDigest7 =>
    exact .inr (.inr fun _ => rfl)
  all_goals simp [isBusWrite, encode, readRequest, -BitVec.reduceAppend] at h

theorem exec_wrAlertTest (wdata : Word) (s : State) : exec (.wrAlertTest wdata) s =
    admitBus s fun s => .next (if wdata.getLsbD 0 then alertTest s else s) := rfl

/-- Settles O18: with bit 0 clear the alert test changes nothing, and the default row only warns. -/
theorem onlyTheAlertTestWriteHasAnEffect : Obligations.OnlyTheAlertTestWriteHasAnEffect := by
  intro i s t hwrite htest h
  obtain ⟨wdata, rfl⟩ | ⟨offset, wdata, rfl⟩ | hignore := busWrite_cases hwrite
  · have hbit : wdata.getLsbD 0 = false := htest
    obtain ⟨-, h⟩ := admitBus_next (exec_wrAlertTest wdata s ▸ h)
    rw [hbit] at h
    cases h
    rfl
  · obtain ⟨-, h⟩ := admitBus_next (exec_wrUnknown offset wdata s ▸ h)
    cases h
    rfl
  · obtain ⟨-, rfl⟩ := busIgnore_next (hignore s ▸ h)
    rfl

end Sys2Proof.Machine
end

section
/-! PROOF. Who writes the backing store and which bytes (20_memory.md R51 to R53). -/

namespace Sys2Proof.Machine

/-! ### One write -/

/-- A read outside the bytes written. -/
theorem Memory.read_writeBytes_outside (m : Memory) {a x : Nat} {bs : List Byte} (h : x < a ∨ a + bs.length ≤ x) :
    (m.writeBytes a bs).read x = m.read x := by
  rw [Memory.read_writeBytes, if_neg (by omega)]

/-- A read inside the bytes written. -/
theorem Memory.read_writeBytes_inside (m : Memory) (a : Nat) {k : Nat} {bs : List Byte} (h : k < bs.length) :
    (m.writeBytes a bs).read (a + k) = bs[k]? := by
  rw [Memory.read_writeBytes, if_pos (by omega), Nat.add_sub_cancel_left]

/-- Byte `i` of `LE_k(v)` (00_scope.md R13). -/
theorem getElem?_leBytes {k i : Nat} (v : Nat) (h : i < k) :
    (leBytes k v)[i]? = some (BitVec.ofNat 8 (v / 256 ^ i)) := by
  induction k generalizing v i with
  | zero => omega
  | succ k ih =>
    cases i with
    | zero => simp [leBytes]
    | succ i => rw [leBytes, List.getElem?_cons_succ, ih _ (by omega), Nat.div_div_eq_div_mul, Nat.pow_succ']

theorem ofNat_toNat_div_pow (v : Word) (k : Nat) : BitVec.ofNat 8 (v.toNat / 256 ^ k) = v.extractLsb' (8 * k) 8 := by
  apply BitVec.eq_of_toNat_eq
  rw [BitVec.extractLsb'_toNat, BitVec.toNat_ofNat, Nat.shiftRight_eq_div_pow, Nat.pow_mul]

/-- Settles O31: byte `k` written is byte `k` of `LE_4(v)`, and no other address is written. -/
theorem memWriteWritesFourBytes : Obligations.MemWriteWritesFourBytes := by
  intro s addr v horder hinside
  have hbytes : storeBytes s.cfg v = leBytes 4 v.toNat := by rw [storeBytes, horder, bytesOf]
  refine ⟨_, memWrite_inside hinside, fun k hk => ?_, fun a ha => ?_⟩
  · rw [Memory.read_writeBytes_inside _ _ (by simpa using hk), hbytes, getElem?_leBytes _ hk, ofNat_toNat_div_pow]
  · exact Memory.read_writeBytes_outside _ (by simpa using ha)

/-! ### Every operation -/

variable {i : Instr} {s t : State}

/-- The store stays, or LOAD.WORD writes the word of the index its scrambled index decodes to. -/
theorem effect_store (e : Effect i s t) :
    t.store = s.store ∨
    ∃ sidx spay v, i = .loadWord sidx spay ∧ descrambledIndex s sidx < romWords s.cfg ∧
      t.store = s.store.writeBytes (descrambledIndex s sidx * 4) (storeBytes s.cfg v) := by
  cases e with
  | loadWord sidx spay idx plain _ op index =>
    obtain ⟨rfl, hlt⟩ := logicalIndex_index index
    exact .inr ⟨sidx, spay, _, op, hlt, rfl⟩
  | _ => exact .inl (by simp [alertTest_eq, finishLoad])

/-- Settles O32: the one write there is covers the four bytes of a word below `N`. -/
theorem onlyLoadWordWritesTheStore : Obligations.OnlyLoadWordWritesTheStore := by
  intro i s t h
  obtain hsame | ⟨sidx, spay, v, rfl, hlt, hstore⟩ := effect_store (exec_next h)
  · exact ⟨fun _ => hsame, fun _ _ _ => .inl hsame⟩
  · refine ⟨fun hne => absurd rfl (hne sidx spay), fun sidx' spay' heq => .inr ?_⟩
    cases heq
    refine ⟨hlt, word_inside hlt, fun a ha => ?_⟩
    rw [hstore]
    exact Memory.read_writeBytes_outside _ (by simpa using ha)

end Sys2Proof.Machine
end

section
/-! PROOF. Decoder and encoder agree (30_encoding.md R71, R72, R77, R78, R85): each operation's encoding decodes to it,
and each 32-bit bus access is in one row of the table. -/

namespace Sys2Proof.Machine

/-- Settles O1: the default rows stand only for offsets outside the register map, which no exact row claims; the encoding
of every other operation names its row outright. -/
theorem decodeOfEncode : Obligations.DecodeOfEncode := by
  intro i hwf
  cases i with
  | rdUnknown offset => exact decode_readRequest_of_unmapped (by simpa [Instr.wf] using hwf)
  | wrUnknown offset wdata => exact decode_writeRequest_of_unmapped (by simpa [Instr.wf] using hwf) wdata
  | _ => rfl

/-- Settles O2: each word is looked up in its table. -/
theorem specWordsDecode : Obligations.SpecWordsDecode :=
  ⟨fun _ => rfl, fun _ => rfl, fun _ => rfl, fun _ => rfl, fun _ => rfl, fun _ => rfl⟩

/-! ### The exact rows -/

theorem nodup_descriptors : (busRows.map BusRow.descriptor).Nodup := by decide

/-- A descriptor stands in one row only, so the decoder finds that row. -/
theorem decodeBus_of_mem_busRows {r : BusRow} (hr : r ∈ busRows) (wdata : Word) :
    decodeBus r.descriptor wdata = r.make wdata := by
  rw [decodeBus]
  split
  next q hq =>
    have hdesc : q.descriptor = r.descriptor := by simpa using List.find?_some hq
    rw [List.inj_on_of_nodup_map nodup_descriptors (List.mem_of_find?_eq_some hq) hr hdesc]
  next hnone => exact absurd (beq_self_eq_true r.descriptor) (List.find?_eq_none.1 hnone r hr)

/-- The operation of an exact row is well-formed, and its encoding has the row's direction and offset. -/
theorem encode_make_of_mem_busRows {r : BusRow} (hr : r ∈ busRows) (wdata : Word) :
    (r.make wdata).wf = true ∧ encode (r.make wdata) =
      if descriptorIsWrite r.descriptor then writeRequest (descriptorOffset r.descriptor) wdata
      else readRequest (descriptorOffset r.descriptor) := by
  fin_cases hr <;> exact ⟨rfl, rfl⟩

/-- The register map has 18 offsets, and each stands in an exact row of either direction (30_encoding.md R72). -/
theorem exists_row_of_mapped {offset : Word} (h : isRegisterOffset offset = true) (dir : BitVec 1) :
    ∃ r ∈ busRows, r.descriptor = dir ++ offset := by
  have hrows : ∀ k < 18, ∀ d : BitVec 1, ∃ r ∈ busRows, r.descriptor = d ++ BitVec.ofNat 32 (4 * k) := by decide
  simp only [isRegisterOffset, Bool.and_eq_true, beq_iff_eq, decide_eq_true_eq] at h
  have hoffset : offset = BitVec.ofNat 32 (4 * (offset.toNat / 4)) := by
    apply BitVec.eq_of_toNat_eq
    rw [BitVec.toNat_ofNat]
    omega
  rw [hoffset]
  exact hrows _ (by omega) dir

/-- A 32-bit bus access is an operation whatever its descriptor (30_encoding.md R85). -/
theorem decode_bus (descriptor : BitVec 33) (x : Operands) :
    decode (.bus 32 descriptor x) = .ok (decodeBus descriptor x.wdata) := rfl

/-- An access in the register map selects an exact row, whose operation encodes to the same direction and offset. -/
theorem decode_bus_of_mapped {offset : Word} (h : isRegisterOffset offset = true) (dir : BitVec 1) (x : Operands) :
    ∃ i, decode (.bus 32 (dir ++ offset) x) = .ok i ∧ i.wf = true ∧
      encode i = if dir.getLsbD 0 then writeRequest offset x.wdata else readRequest offset := by
  obtain ⟨r, hr, hdesc⟩ := exists_row_of_mapped h dir
  obtain ⟨hwf, hencode⟩ := encode_make_of_mem_busRows hr x.wdata
  refine ⟨r.make x.wdata, ?_, hwf, ?_⟩
  · rw [decode_bus, ← hdesc, decodeBus_of_mem_busRows hr]
  · rw [hencode, hdesc, descriptorIsWrite_append, descriptorOffset_append]

/-- Settles O3: outside the map the default row of the direction bit, inside it an exact row of that direction. -/
theorem everyBusAccessSelectsOneRow : Obligations.EveryBusAccessSelectsOneRow := by
  refine ⟨fun offset x h => ?_, fun offset x h => ?_⟩
  · have hdefault (dir : BitVec 1) : decode (.bus 32 (dir ++ offset) x) =
        .ok (if dir.getLsbD 0 then .wrUnknown offset x.wdata else .rdUnknown offset) := by
      rw [decode_bus, decodeBus_of_unmapped (by rwa [descriptorOffset_append]), descriptorIsWrite_append,
        descriptorOffset_append]
    exact ⟨hdefault 0#1, hdefault 1#1⟩
  · exact ⟨decode_bus_of_mapped h 0#1 x, decode_bus_of_mapped h 1#1 x⟩

end Sys2Proof.Machine
end

section
/-! PROOF. How key and nonce bytes become values (30_encoding.md R81 to R83, 43_descrambling_pipeline.md R181 to R183). -/

namespace Sys2Proof.Machine

/-! ### Bytes -/

theorem ofLeBytes_append (as bs : List Byte) :
    ofLeBytes (as ++ bs) = ofLeBytes as + 256 ^ as.length * ofLeBytes bs := by
  induction as with
  | nil => simp [ofLeBytes]
  | cons a as ih => simp only [List.cons_append, ofLeBytes, ih, List.length_cons, Nat.pow_succ]; ring

theorem ofBytes_lt (o : ByteOrder) (bs : List Byte) : ofBytes o bs < 256 ^ bs.length := by
  cases o with
  | little => exact ofLeBytes_lt bs
  | big => simpa [ofBytes] using ofLeBytes_lt bs.reverse

/-- Eight bytes fit the 64-bit word they are read into. -/
theorem toNat_keyWord (c : Config) {bs : List Byte} (h : bs.length = 8) :
    (keyWord c bs).toNat = ofBytes c.keyByteOrder bs := by
  have hlt : ofBytes c.keyByteOrder bs < 2 ^ 64 := by simpa [h] using ofBytes_lt c.keyByteOrder bs
  rw [keyWord, BitVec.toNat_ofNat, Nat.mod_eq_of_lt hlt]

/-! ### The key -/

theorem execSetKey_of_length {s : State} {kbytes : List Byte} (hidle : s.phase = .idle) (hunset : s.keySet = false)
    (hlen : kbytes.length = 16) :
    execSetKey kbytes s = .next (setKeyRegs s (keyK0 s.cfg kbytes) (keyK1 s.cfg kbytes)) := by
  rw [execSetKey, admitConfig_admitted hidle hunset, if_neg (not_not.2 hlen)]

/-- Settles O22: each half is eight bytes; the little-endian number of all sixteen is that of the first eight plus
`2^64` times that of the last eight. -/
theorem setKeyCompletes : Obligations.SetKeyCompletes := by
  intro s kbytes hidle hunset hlen
  have htake : (kbytes.take 8).length = 8 := by simp [hlen]
  have hk1 : (keyK1 s.cfg kbytes).toNat = ofBytes s.cfg.keyByteOrder (kbytes.take 8) := toNat_keyWord _ htake
  have hk0 : (keyK0 s.cfg kbytes).toNat = ofBytes s.cfg.keyByteOrder (kbytes.drop 8) :=
    toNat_keyWord _ (by simp [hlen])
  refine ⟨_, _, execSetKey_of_length hidle hunset hlen, fun horder => ?_, fun horder => ?_⟩
  · rw [horder, ofBytes] at hk0 hk1
    refine ⟨hk1, hk0, ?_⟩
    have happend := ofLeBytes_append (kbytes.take 8) (kbytes.drop 8)
    rw [List.take_append_drop, htake, ← hk0, ← hk1] at happend
    omega
  · rw [horder, ofBytes] at hk0 hk1
    exact ⟨hk1, hk0⟩

/-! ### The nonce -/

theorem toNat_splitAddrKey (c : Config) (nonce : DWord) :
    (splitAddrKey c nonce).toNat = nonce.toNat / 2 ^ (64 - indexWidth c) := by
  rw [splitAddrKey, BitVec.toNat_ushiftRight, Nat.shiftRight_eq_div_pow]

theorem toNat_splitDataNonce (c : Config) (nonce : DWord) :
    (splitDataNonce c nonce).toNat = nonce.toNat * 2 ^ indexWidth c % 2 ^ 64 := by
  rw [splitDataNonce, BitVec.toNat_shiftLeft, Nat.shiftLeft_eq]

theorem execSetNonce_of_length {s : State} {nbytes : List Byte} (hidle : s.phase = .idle)
    (hunset : s.nonceSet = false) (hlen : nbytes.length = 8) :
    execSetNonce nbytes s = .next (setNonceRegs s (keyWord s.cfg nbytes) (splitAddrKey s.cfg (keyWord s.cfg nbytes))
      (splitDataNonce s.cfg (keyWord s.cfg nbytes))) := by
  rw [execSetNonce, admitConfig_admitted hidle hunset, if_neg (not_not.2 hlen)]

/-- Settles O23: the two shifts are the division and the multiplication; shifts by `64 - W = 0` and by `W > 64` are the
model's last clause. -/
theorem setNonceCompletes : Obligations.SetNonceCompletes := by
  intro s nbytes hidle hunset hlen
  have hnonce := toNat_keyWord s.cfg hlen
  refine ⟨_, _, _, execSetNonce_of_length hidle hunset hlen, fun horder => ?_, fun horder => ?_,
    fun _ => ⟨toNat_splitAddrKey _ _, toNat_splitDataNonce _ _⟩,
    fun hwide => ⟨?_, BitVec.shiftLeft_eq_zero hwide.le⟩⟩
  · rw [hnonce, horder, ofBytes]
  · rw [hnonce, horder, ofBytes]
  · rw [splitAddrKey, Nat.sub_eq_zero_of_le hwide.le, BitVec.ushiftRight_zero]

/-! ### The keystream input -/

/-- For `W` up to 64 the data nonce is the nonce's low `64 − W` bits above `W` zero bits
(43_descrambling_pipeline.md R183). -/
theorem toNat_splitDataNonce_of_le {c : Config} (hw : indexWidth c ≤ 64) (nonce : DWord) :
    (splitDataNonce c nonce).toNat = nonce.toNat % 2 ^ (64 - indexWidth c) * 2 ^ indexWidth c := by
  rw [toNat_splitDataNonce, ← Nat.mul_mod_mul_right, ← Nat.pow_add, Nat.sub_add_cancel hw]

/-- Settles O39: the index lies in the data nonce's zero bits, so the OR is a sum. -/
theorem keystreamInputIsConcatenation : Obligations.KeystreamInputIsConcatenation := by
  intro s idx hw hsplit hidx
  have hfits : idx < 2 ^ 64 := hidx.trans_le (Nat.pow_le_pow_right Nat.two_pos hw)
  rw [keystreamInput, hsplit, BitVec.toNat_or, BitVec.toNat_ofNat, Nat.mod_eq_of_lt hfits,
    toNat_splitDataNonce_of_le hw, Nat.or_comm, Nat.mul_comm, ← Nat.two_pow_add_eq_or_of_lt hidx]

end Sys2Proof.Machine
end

section
/-! PROOF. The pseudo-operation LOAD (30_encoding.md R88): where a fatal error ends it, and that it is its expansion. -/

namespace Sys2Proof.Machine

variable {s t : State} {image : List (Word × DWord)}

/-! ### What LOAD can do -/

theorem loadWords_cons_next {e : Word × DWord} (h : loadWords (e :: image) s = .next t) :
    ∃ u, execLoadWord e.1 e.2 s = .next u ∧
      (u.phase = .failed ∧ t = u ∨ u.phase ≠ .failed ∧ loadWords image u = .next t) := by
  rw [loadWords] at h
  split at h
  next u hu =>
    refine ⟨u, hu, ?_⟩
    split at h
    next hf => exact .inl ⟨hf, by simpa using h.symm⟩
    next hf => exact .inr ⟨hf, h⟩
  all_goals cases h

theorem loadImage_next (h : loadImage image s = .next t) :
    ∃ u v, execLoadBegin s = .next u ∧ loadWords image u = .next v ∧
      (v.phase = .failed ∧ t = v ∨ v.phase ≠ .failed ∧ execLoadEnd v = .next t) := by
  rw [loadImage] at h
  split at h
  next u hu =>
    split at h
    next v hv =>
      refine ⟨u, v, hu, hv, ?_⟩
      split at h
      next hf => exact .inl ⟨hf, by simpa using h.symm⟩
      next hf => exact .inr ⟨hf, h⟩
    all_goals cases h
  all_goals cases h

/-! ### Fatal errors -/

/-- Entries behind the one that raises a fatal error are not looked at. -/
theorem loadWords_append_of_failed {front : List (Word × DWord)} (back : List (Word × DWord)) (hs : s.phase ≠ .failed)
    (h : loadWords front s = .next t) (ht : t.phase = .failed) : loadWords (front ++ back) s = .next t := by
  induction front generalizing s with
  | nil =>
    cases h
    exact absurd ht hs
  | cons e front ih =>
    obtain ⟨u, hu, ⟨hf, rfl⟩ | ⟨hf, hrest⟩⟩ := loadWords_cons_next h
    · simp [loadWords, hu, hf]
    · simp [loadWords, hu, hf, ih hf hrest]

/-- Settles O41: LOAD.BEGIN leaves Loading, so in both cases the entries run from a state that is not Failed. -/
theorem fatalErrorEndsTheLoad : Obligations.FatalErrorEndsTheLoad := by
  refine ⟨fun front back s t hs h ht => ?_, fun front back s u t hbegin h ht => ?_⟩
  · exact loadWords_append_of_failed back (by simp [hs]) h ht
  · obtain ⟨-, -, -, hu⟩ := admitBegin_next hbegin
    cases hu
    simp [loadImage, hbegin, loadWords_append_of_failed back (by simp) h ht, ht]

/-! ### The queue behind the load

The operations of a load do what they do whatever is pending. -/

theorem recordPayload_withPending (s : State) (rs : List Request) (idx : Nat) (spay : DWord) :
    recordPayload (withPending s rs) idx spay = withPending (recordPayload s idx spay) rs := by
  simp only [recordPayload_eq]
  rfl

theorem checkDecoded_withPending (s : State) (rs : List Request) (idx : Nat) (plain : Codeword) :
    checkDecoded (withPending s rs) idx plain = withPending (checkDecoded s idx plain) rs := by
  simp only [checkDecoded_eq]
  rfl

theorem execLoadBegin_withPending (rs : List Request) (h : execLoadBegin s = .next t) :
    execLoadBegin (withPending s rs) = .next (withPending t rs) := by
  obtain ⟨hp, hk, hn, h⟩ := admitBegin_next h
  cases h
  exact admitBegin_admitted (s := withPending s rs) hp hk hn

theorem loadAt_withPending (rs : List Request) {idx : Nat} {spay : DWord} (h : loadAt s idx spay = .next t) :
    loadAt (withPending s rs) idx spay = .next (withPending t rs) := by
  have hdecode : decodePayload (withPending (recordPayload s idx spay) rs) idx spay =
    decodePayload (recordPayload s idx spay) idx spay := rfl
  obtain ⟨hnone, rfl⟩ | ⟨plain, hsome, hinside, rfl⟩ := loadAt_next h
  · simp only [loadAt, recordPayload_withPending, hdecode, hnone]
    rfl
  · simp only [loadAt, recordPayload_withPending, hdecode, hsome, checkDecoded_withPending]
    rw [memWrite_inside (by simpa [checkDecoded_eq] using hinside)]
    simp only [checkDecoded_eq, recordPayload_eq]
    rfl

theorem execLoadWord_withPending (rs : List Request) {sidx : Word} {spay : DWord}
    (h : execLoadWord sidx spay s = .next t) : execLoadWord sidx spay (withPending s rs) = .next (withPending t rs) := by
  have hindex : logicalIndex (withPending s rs) sidx = logicalIndex s sidx := rfl
  obtain ⟨hp, ⟨code, info, hi, rfl⟩ | ⟨idx, hi, h⟩⟩ := execLoadWord_next h
  · rw [execLoadWord, admitLoading_admitted (s := withPending s rs) hp]
    simp only [hindex, hi]
    rfl
  · rw [execLoadWord, admitLoading_admitted (s := withPending s rs) hp]
    simp only [hindex, hi, loadAt_withPending rs h]

theorem loadWords_pending (h : loadWords image s = .next t) : t.pending = s.pending := by
  induction image generalizing s with
  | nil => cases h; rfl
  | cons e image ih =>
    obtain ⟨u, hu, ⟨-, rfl⟩ | ⟨-, hrest⟩⟩ := loadWords_cons_next h
    · exact effect_pending (effect_loadWord hu)
    · rw [ih hrest, effect_pending (effect_loadWord hu)]

/-! ### The expansion -/

/-- The encoding of an operation at the head of the queue is served by one step. -/
theorem run_encode {i : Instr} (hwf : i.wf = true) {rs : List Request} (h : exec i (withPending s rs) = .next t)
    (n : Nat) : run (n + 1) (withPending s (encode i :: rs)) = run n t := by
  have hstep : step (withPending s (encode i :: rs)) = .next t := (step_cons rfl (decodeOfEncode i hwf)).trans h
  rw [run, hstep]

/-- The LOAD.WORDs of an image, before any other requests, take one step each. -/
theorem run_loadWords (h : loadWords image s = .next t) (ht : t.phase ≠ .failed) (rs : List Request) (n : Nat) :
    run (image.length + n) (withPending s ((image.map fun e => encode (.loadWord e.1 e.2)) ++ rs)) =
      run n (withPending t rs) := by
  induction image generalizing s with
  | nil =>
    cases h
    simp
  | cons e image ih =>
    obtain ⟨u, hu, ⟨hf, rfl⟩ | ⟨-, hrest⟩⟩ := loadWords_cons_next h
    · exact absurd hf ht
    · rw [← ih hrest, List.length_cons, Nat.succ_add]
      exact run_encode (i := .loadWord e.1 e.2) rfl (execLoadWord_withPending _ hu) _

/-- The expansion placed before what is pending: LOAD.BEGIN, the LOAD.WORDs and LOAD.END are served in turn. -/
theorem run_expandLoad (h : loadImage image s = .next t) (ht : t.phase ≠ .failed) :
    run (image.length + 2) (withPending s (expandLoad image ++ s.pending)) = .next t := by
  obtain ⟨u, v, hbegin, hwords, ⟨hf, rfl⟩ | ⟨hf, hend⟩⟩ := loadImage_next h
  · exact absurd hf ht
  · have hpending : v.pending = s.pending := (loadWords_pending hwords).trans (effect_pending (effect_loadBegin hbegin))
    have hlast : exec .loadEnd (withPending v s.pending) = .next t := by
      rw [← hpending]
      exact hend
    calc run (image.length + 2) (withPending s (expandLoad image ++ s.pending))
      _ = run (image.length + 1) (withPending u
            ((image.map fun e => encode (.loadWord e.1 e.2)) ++ [encode .loadEnd] ++ s.pending)) :=
        run_encode (i := .loadBegin) rfl (execLoadBegin_withPending _ hbegin) _
      _ = run 1 (withPending v (encode .loadEnd :: s.pending)) := by
        rw [List.append_assoc, run_loadWords hwords hf]
        rfl
      _ = .next t := run_encode rfl hlast 0

/-- Settles O40: the state with the expansion pending is the expansion placed before the other requests. -/
theorem loadIsItsExpansion : Obligations.LoadIsItsExpansion := by
  intro image s t rest hp h ht
  have hs : withPending (withPending s rest) (expandLoad image ++ rest) = s := by
    rw [← hp]
    rfl
  exact hs ▸ run_expandLoad h (by simp [ht])

end Sys2Proof.Machine
end

section
/-! PROOF. LBC.ENC and LBC.DEC undo each other and are bijections of the values below `2^w`
(40_lightweight_block_cipher.md R109, R110). -/

namespace Sys2Proof.Machine

open Function

variable {w : Nat} {c : Config}

/-! ### The rounds

A round of one direction undoes a round of the other with an exclusive-or with the key between and after them, so the
rounds cancel in pairs from the middle of a round trip outwards, and the final whitening leaves the datum. -/

theorem encRounds_eq_iterate (c : Config) (key : BitVec w) (n : Nat) : encRounds c key n = (encRound c key)^[n] := by
  induction n with
  | zero => rfl
  | succ n ih => exact congrArg (· ∘ encRound c key) ih

theorem decRounds_eq_iterate (c : Config) (key : BitVec w) (n : Nat) : decRounds c key n = (decRound c key)^[n] := by
  induction n with
  | zero => rfl
  | succ n ih => exact congrArg (· ∘ decRound c key) ih

/-- Where one round of `g` undoes one of `f` across an exclusive-or with the key, `n` rounds of `g` undo `n` of `f`. -/
theorem iterate_xor_iterate {f g : BitVec w → BitVec w} {key : BitVec w} (h : ∀ s, g (f s ^^^ key) = s ^^^ key)
    (n : Nat) (s : BitVec w) : g^[n] (f^[n] s ^^^ key) = s ^^^ key := by
  induction n generalizing s with
  | zero => rfl
  | succ n ih => rw [iterate_succ_apply', iterate_succ_apply, ih, h]

/-! ### The ciphers on values of active width `w` -/

/-- The value of LBC.ENC: the rounds and the final key whitening (40_lightweight_block_cipher.md R107). -/
def encBlock (c : Config) (key : BitVec w) (rounds : Nat) (x : BitVec w) : BitVec w := encRounds c key rounds x ^^^ key

/-- The value of LBC.DEC: the rounds and the final key whitening (40_lightweight_block_cipher.md R108). -/
def decBlock (c : Config) (key : BitVec w) (rounds : Nat) (x : BitVec w) : BitVec w := decRounds c key rounds x ^^^ key

theorem decBlock_encBlock (h : sboxInvertible c.tables.presentSbox = true) (key : BitVec w) (r : Nat) :
    LeftInverse (decBlock c key r) (encBlock c key r) := by
  intro x
  rw [decBlock, encBlock, encRounds_eq_iterate, decRounds_eq_iterate, iterate_xor_iterate (decRound_encRound h key),
    xor_cancel_right]

theorem encBlock_decBlock (h : sboxInvertible c.tables.presentSbox = true) (key : BitVec w) (r : Nat) :
    LeftInverse (encBlock c key r) (decBlock c key r) := by
  intro x
  rw [decBlock, encBlock, encRounds_eq_iterate, decRounds_eq_iterate, iterate_xor_iterate (encRound_decRound h key),
    xor_cancel_right]

/-! ### The operations on numbers -/

/-- Every number below `2^w` is a value of active width `w`. -/
theorem exists_toNat_eq {d : Nat} (h : d < 2 ^ w) : ∃ x : BitVec w, x.toNat = d := ⟨.ofNatLT d h, rfl⟩

/-- On the numbers below `2^w`, `op` gives the value of `f` in the 64-bit carrier. -/
def Computes (op : Nat → LbcResult) (f : BitVec w → BitVec w) : Prop := ∀ x, op x.toNat = .value ((f x).setWidth 64)

theorem lbcEnc_computes (hw : w ≤ 64) (key : BitVec w) (r : Nat) :
    Computes (fun d => lbcEnc c d key.toNat w r) (encBlock c key r) := by
  intro x
  simp [lbcEnc_value r hw x.isLt key.isLt, encBlock]

theorem lbcDec_computes (hw : w ≤ 64) (key : BitVec w) (r : Nat) :
    Computes (fun d => lbcDec c d key.toNat w r) (decBlock c key r) := by
  intro x
  simp [lbcDec_value r hw x.isLt key.isLt, decBlock]

theorem toNat_setWidth_64_lt (hw : w ≤ 64) (x : BitVec w) : (x.setWidth 64).toNat < 2 ^ w :=
  (toNat_setWidth_64 hw x).symm ▸ x.isLt

section

variable {enc dec : Nat → LbcResult} {e d : BitVec w → BitVec w}

/-- An operation, and after it one whose function undoes its own, give the datum back. -/
theorem Computes.roundTrip (he : Computes enc e) (hd : Computes dec d) (hw : w ≤ 64) (h : LeftInverse d e)
    (x : BitVec w) : ∃ v : DWord, v.toNat < 2 ^ w ∧ enc x.toNat = .value v ∧
      ∃ u : DWord, u.toNat = x.toNat ∧ dec v.toNat = .value u := by
  refine ⟨(e x).setWidth 64, toNat_setWidth_64_lt hw _, he x, x.setWidth 64, toNat_setWidth_64 hw x, ?_⟩
  rw [toNat_setWidth_64 hw, hd, h x]

theorem Computes.injOn (he : Computes enc e) (hw : w ≤ 64) (h : Injective e) {m n : Nat} (hm : m < 2 ^ w)
    (hn : n < 2 ^ w) (heq : enc m = enc n) : m = n := by
  obtain ⟨x, rfl⟩ := exists_toNat_eq hm
  obtain ⟨y, rfl⟩ := exists_toNat_eq hn
  rw [he, he, LbcResult.value.injEq] at heq
  have hxy : e x = e y := BitVec.eq_of_toNat_eq (by simpa only [toNat_setWidth_64 hw] using congrArg BitVec.toNat heq)
  exact congrArg BitVec.toNat (h hxy)

theorem Computes.surjOn (he : Computes enc e) (hw : w ≤ 64) (h : Surjective e) {v : DWord} (hv : v.toNat < 2 ^ w) :
    ∃ n, n < 2 ^ w ∧ enc n = .value v := by
  obtain ⟨y, hy⟩ := exists_toNat_eq hv
  obtain ⟨x, rfl⟩ := h y
  refine ⟨x.toNat, x.isLt, ?_⟩
  rw [he, LbcResult.value.injEq]
  exact BitVec.eq_of_toNat_eq ((toNat_setWidth_64 hw _).trans hy)

end

/-- Settles O45: the two directions undo each other on the values of width `w`, which the operations compute. -/
theorem lbcRoundTrip : Obligations.LbcRoundTrip := by
  intro c d k w r hs hw hk hd
  obtain ⟨key, rfl⟩ := exists_toNat_eq hk
  obtain ⟨x, rfl⟩ := exists_toNat_eq hd
  have enc := lbcEnc_computes (c := c) hw key r
  have dec := lbcDec_computes (c := c) hw key r
  exact ⟨enc.roundTrip dec hw (decBlock_encBlock hs key r) x, dec.roundTrip enc hw (encBlock_decBlock hs key r) x⟩

/-- Settles O46: each direction is undone by the other, so injective, and undoes the other, so onto. -/
theorem lbcIsBijective : Obligations.LbcIsBijective := by
  intro c k w r hs hw hk
  obtain ⟨key, rfl⟩ := exists_toNat_eq hk
  have enc := lbcEnc_computes (c := c) hw key r
  have dec := lbcDec_computes (c := c) hw key r
  have decEnc := decBlock_encBlock hs key r
  have encDec := encBlock_decBlock hs key r
  exact ⟨fun _ _ => enc.injOn hw decEnc.injective, fun _ _ => dec.injOn hw encDec.injective,
    fun _ => enc.surjOn hw encDec.surjective, fun _ => dec.surjOn hw decEnc.surjective⟩

end Sys2Proof.Machine
end

section
/-! PROOF. The corner cases of LBC: no rounds, width 0 and width 1 (40_lightweight_block_cipher.md R107). -/

namespace Sys2Proof.Machine

open Function

variable {w : Nat}

/-! ### At width 1 every layer is the identity, so a round of either direction adds the key -/

/-- Below width 4 there is no whole nibble to substitute (40_lightweight_block_cipher.md R103). -/
theorem subLayer_eq_self (hw : w < 4) (t : Nibble → Nibble) (x : BitVec w) : subLayer t x = x := by
  have hnone : 4 * (w / 4) = 0 := by omega
  simp only [subLayer, hnone, Nat.not_lt_zero, if_false, ofBits_getLsbD]

theorem flipLayer_width_one : ∀ x : BitVec 1, flipLayer x = x := by decide

theorem permLayer_width_one : ∀ x : BitVec 1, permLayer x = x := by decide

theorem permInvLayer_width_one : ∀ x : BitVec 1, permInvLayer x = x := by decide

theorem lbcF_width_one (c : Config) (x : BitVec 1) : lbcF c x = x := by
  rw [lbcF, flipLayer_width_one, ite_self]

theorem encRound_width_one (c : Config) (key : BitVec 1) : encRound c key = (· ^^^ key) := by
  funext s
  rw [encRound, permLayer_width_one, lbcF_width_one, subLayer_eq_self (by decide)]

theorem decRound_width_one (c : Config) (key : BitVec 1) : decRound c key = (· ^^^ key) := by
  funext s
  rw [decRound, subLayer_eq_self (by decide), lbcF_width_one, permInvLayer_width_one]

/-- An even number of exclusive-ors with the key cancel; an odd number cancel with the final whitening. -/
theorem iterate_xor_whitened (key x : BitVec w) (n : Nat) :
    (· ^^^ key)^[n] x ^^^ key = if n % 2 = 0 then x ^^^ key else x := by
  have hinv := xor_left_involutive key
  split
  next heven => rw [hinv.iterate_even (Nat.even_iff.2 heven), id]
  next hodd => rw [hinv.iterate_odd (Nat.odd_iff.2 (Nat.mod_two_ne_zero.1 hodd)), xor_cancel_right]

theorem encBlock_width_one (c : Config) (key x : BitVec 1) (r : Nat) :
    encBlock c key r x = if r % 2 = 0 then x ^^^ key else x := by
  rw [encBlock, encRounds_eq_iterate, encRound_width_one, iterate_xor_whitened]

theorem decBlock_width_one (c : Config) (key x : BitVec 1) (r : Nat) :
    decBlock c key r x = if r % 2 = 0 then x ^^^ key else x := by
  rw [decBlock, decRounds_eq_iterate, decRound_width_one, iterate_xor_whitened]

/-! ### The three cases -/

theorem lbc_no_rounds (c : Config) (hw : w ≤ 64) (key x : BitVec w) :
    lbcEnc c x.toNat key.toNat w 0 = .value ((x ^^^ key).setWidth 64) ∧
    lbcDec c x.toNat key.toNat w 0 = .value ((x ^^^ key).setWidth 64) :=
  ⟨lbcEnc_computes hw key 0 x, lbcDec_computes hw key 0 x⟩

/-- The only value of width 0 is zero. -/
theorem lbc_width_zero (c : Config) (r : Nat) : lbcEnc c 0 0 0 r = .value 0 ∧ lbcDec c 0 0 0 r = .value 0 := by
  have henc := lbcEnc_computes (c := c) (Nat.zero_le 64) 0#0 r 0#0
  have hdec := lbcDec_computes (c := c) (Nat.zero_le 64) 0#0 r 0#0
  rw [BitVec.eq_nil (encBlock _ _ _ _)] at henc
  rw [BitVec.eq_nil (decBlock _ _ _ _)] at hdec
  exact ⟨henc, hdec⟩

theorem lbc_width_one (c : Config) (key x : BitVec 1) (r : Nat) :
    lbcEnc c x.toNat key.toNat 1 r = .value ((if r % 2 = 0 then x ^^^ key else x).setWidth 64) ∧
    lbcDec c x.toNat key.toNat 1 r = .value ((if r % 2 = 0 then x ^^^ key else x).setWidth 64) :=
  ⟨encBlock_width_one c key x r ▸ lbcEnc_computes (by decide) key r x,
    decBlock_width_one c key x r ▸ lbcDec_computes (by decide) key r x⟩

/-- Settles O49: both directions give one value of width `w`, and its carrier is the number the rule names. -/
theorem lbcCornerCases : Obligations.LbcCornerCases := by
  refine ⟨fun c data key width hw hd hk => ?_, lbc_width_zero, fun c data key r hd hk => ?_⟩
  · obtain ⟨x, rfl⟩ := exists_toNat_eq hd
    obtain ⟨k, rfl⟩ := exists_toNat_eq hk
    exact ⟨_, by rw [toNat_setWidth_64 hw, BitVec.toNat_xor], lbc_no_rounds c hw k x⟩
  · obtain ⟨x, rfl⟩ := exists_toNat_eq (w := 1) hd
    obtain ⟨k, rfl⟩ := exists_toNat_eq (w := 1) hk
    exact ⟨_, by rw [toNat_setWidth_64 (by decide), apply_ite BitVec.toNat, BitVec.toNat_xor], lbc_width_one c k x r⟩

end Sys2Proof.Machine
end

section
/-! PROOF. LBC.ENC and LBC.DEC as primitive calls, inside their domain and outside it
(40_lightweight_block_cipher.md R107, R108; 60_exceptions.md R255). -/

namespace Sys2Proof.Machine

variable {s : State} {c : Config} {data key width : Nat}

/-- Outside Failed a call answers what the cipher gives. -/
theorem exec_lbcEnc (h : s.phase ≠ .failed) (data key width rounds : Nat) :
    exec (.lbcEnc data key width rounds) s = answerLbc s (lbcEnc s.cfg data key width rounds) :=
  admitPrim_admitted (k := fun s => answerLbc s (lbcEnc s.cfg data key width rounds)) h

theorem exec_lbcDec (h : s.phase ≠ .failed) (data key width rounds : Nat) :
    exec (.lbcDec data key width rounds) s = answerLbc s (lbcDec s.cfg data key width rounds) :=
  admitPrim_admitted (k := fun s => answerLbc s (lbcDec s.cfg data key width rounds)) h

/-! ### Outside the domain -/

theorem lbc_domain (rounds : Nat) (h : 64 < width ∨ 2 ^ width ≤ data) :
    lbcEnc c data key width rounds = .domain ∧ lbcDec c data key width rounds = .domain := by
  obtain hw | hd := h
  · simp only [lbcEnc, lbcDec, hw, if_true, and_self]
  · simp only [lbcEnc, lbcDec, hd, if_true, ite_self, and_self]

theorem lbc_keyWidth (rounds : Nat) (hw : width ≤ 64) (hd : data < 2 ^ width) (hk : 2 ^ width ≤ key) :
    lbcEnc c data key width rounds = .keyWidth ∧ lbcDec c data key width rounds = .keyWidth := by
  simp only [lbcEnc, lbcDec, Nat.not_lt.2 hw, Nat.not_le.2 hd, hk, if_true, if_false, and_self]

/-- Settles O48: the call answers `Err(LbcDomain)` or the refusal, as the cipher gives it. -/
theorem lbcDomainErrors : Obligations.LbcDomainErrors := by
  intro s data key width rounds hs
  rw [exec_lbcEnc hs, exec_lbcDec hs]
  refine ⟨fun h => ?_, fun hw hd hk => ?_⟩
  · obtain ⟨henc, hdec⟩ := lbc_domain (c := s.cfg) (key := key) rounds h
    rw [henc, hdec]
    exact ⟨rfl, rfl⟩
  · obtain ⟨henc, hdec⟩ := lbc_keyWidth (c := s.cfg) rounds hw hd hk
    rw [henc, hdec]
    exact ⟨rfl, rfl⟩

/-! ### Inside the domain -/

/-- Settles O47: the value is of width `width`, and the answer is the only write. -/
theorem lbcCallsComplete : Obligations.LbcCallsComplete := by
  intro s data key width rounds hs hw hd hk
  rw [exec_lbcEnc hs, exec_lbcDec hs, lbcEnc_value rounds hw hd hk, lbcDec_value rounds hw hd hk]
  exact ⟨rfl, rfl, toNat_setWidth_64_lt hw _, toNat_setWidth_64_lt hw _⟩

end Sys2Proof.Machine
end

section
/-! PROOF. The mixing layers of the reflection block cipher undo each other, and RBC.ENC as a primitive call answers its
value or a refusal (41_reflection_cipher.md R130, R134, R135, R139). -/

namespace Sys2Proof.Machine

/-- Settles O51: MPRIME bit by bit in each lane, SR and SR_INV nibble by nibble. -/
theorem mixingLayersInvert : Obligations.MixingLayersInvert :=
  fun x => ⟨mprime_mprime x, shiftRowsInv_shiftRows x, shiftRows_shiftRowsInv x⟩

variable {s : State} {data k1 k0 : DWord} {width rounds : Nat}

/-- Outside Failed the width is checked before the number of rounds (assumption log 16). -/
theorem exec_rbcEnc (h : s.phase ≠ .failed) : exec (.rbcEnc data k1 k0 width rounds) s =
    if width ≠ 64 then .refused .rbcWidth
    else if rounds % 2 = 1 then .refused .rbcRounds
    else if 10 < rounds then .refused .rbcRounds
    else .next (respond s (.value (rbcEnc s.cfg.tables data k1 k0 rounds))) := by
  rw [show exec (.rbcEnc data k1 k0 width rounds) s = execRbcEnc data k1 k0 width rounds s from rfl,
    execRbcEnc, admitPrim_admitted h]

theorem exec_rbcEnc_width (h : s.phase ≠ .failed) (hw : width ≠ 64) :
    exec (.rbcEnc data k1 k0 width rounds) s = .refused .rbcWidth := by
  rw [exec_rbcEnc h, if_pos hw]

theorem exec_rbcEnc_rounds (h : s.phase ≠ .failed) (hr : rounds % 2 = 1 ∨ 10 < rounds) :
    exec (.rbcEnc data k1 k0 64 rounds) s = .refused .rbcRounds := by
  rw [exec_rbcEnc h, if_neg (not_not_intro rfl)]
  obtain hodd | hmany := hr
  · exact if_pos hodd
  · rw [if_pos hmany, ite_self]

theorem exec_rbcEnc_value (h : s.phase ≠ .failed) (heven : rounds % 2 = 0) (hle : rounds ≤ 10) :
    exec (.rbcEnc data k1 k0 64 rounds) s = .next (respond s (.value (rbcEnc s.cfg.tables data k1 k0 rounds))) := by
  rw [exec_rbcEnc h, if_neg (not_not_intro rfl), if_neg (Nat.mod_two_ne_one.2 heven), if_neg hle.not_gt]

/-- Settles O50: a wrong width is refused whatever the number of rounds; the answer is the only write. -/
theorem rbcCallCompletes : Obligations.RbcCallCompletes := by
  intro s data k1 k0 width rounds hs
  refine ⟨?_, ?_, fun hw _ _ => exec_rbcEnc_width hs hw, fun hw _ => exec_rbcEnc_width hs hw⟩
  · rintro rfl heven hle
    exact exec_rbcEnc_value hs heven hle
  · rintro rfl hr
    exact exec_rbcEnc_rounds hs hr

end Sys2Proof.Machine
end

section
/-! PROOF. ECC as a linear code: what the bits of a codeword are, and which disturbances of one are detected
(42_hsiao_secded.md R161 to R165). -/

namespace Sys2Proof.Machine

variable {t : Tables} {s : State}

/-! ### The bits of a codeword -/

theorem getLsbD_eccAdd (t : Tables) (w : Word) {i : Nat} (hi : i < 39) : (eccAdd t w).getLsbD i =
    ((if i < 32 then w.getLsbD i else checkBit t w (i - 32)) ^^ t.hsiaoInv.getLsbD i) := by
  simp only [eccAdd, BitVec.getLsbD_xor, getLsbD_ofBits, hi, decide_true, Bool.true_and]

theorem getLsbD_eccAdd_data (t : Tables) (w : Word) {b : Nat} (hb : b < 32) :
    (eccAdd t w).getLsbD b = (w.getLsbD b ^^ t.hsiaoInv.getLsbD b) := by
  rw [getLsbD_eccAdd t w (by omega), if_pos hb]

theorem getLsbD_eccAdd_check (t : Tables) (w : Word) {k : Nat} (hk : k < 7) :
    (eccAdd t w).getLsbD (32 + k) = (checkBit t w k ^^ t.hsiaoInv.getLsbD (32 + k)) := by
  rw [getLsbD_eccAdd t w (by omega), if_neg (by omega), Nat.add_sub_cancel_left]

theorem checkBit_fin (t : Tables) (w : Word) (k : Fin 7) : checkBit t w k = parity (w &&& t.hsiaoMasks[k]) := by
  simp [checkBit]

/-- Without an inversion of data bits the data stand in the codeword's low 32 bits. -/
theorem extractLsb'_eccAdd (hinv : t.hsiaoInv.extractLsb' 0 32 = 0) (w : Word) :
    (eccAdd t w).extractLsb' 0 32 = w := by
  apply BitVec.eq_of_getLsbD_eq
  intro b hb
  have hzero : t.hsiaoInv.getLsbD b = false := by simpa [hb] using congrArg (·.getLsbD b) hinv
  simp [hb, getLsbD_eccAdd_data t w hb, hzero]

/-! ### The primitive calls -/

theorem exec_eccAdd (h : s.phase ≠ .failed) (w : Word) :
    exec (.eccAdd w) s = .next (respond s (.codeword (eccAdd s.cfg.tables w))) :=
  admitPrim_admitted (k := fun s => .next (respond s (.codeword (eccAdd s.cfg.tables w)))) h

theorem exec_eccChk (h : s.phase ≠ .failed) (v : Codeword) :
    exec (.eccChk v) s = .next (respond s (.check (eccChk s.cfg.tables v))) :=
  admitPrim_admitted (k := fun s => .next (respond s (.check (eccChk s.cfg.tables v)))) h

/-- Settles O54: the answers are `eccAdd` and `eccChk`, whose bits and meaning the lemmas above give. -/
theorem eccCallsComplete : Obligations.EccCallsComplete := by
  intro s word value hs
  refine ⟨eccAdd s.cfg.tables word, exec_eccAdd hs word, fun b => getLsbD_eccAdd_data _ word, fun b => ?_,
    eccChk s.cfg.tables value, exec_eccChk hs value, beq_iff_eq⟩
  rw [getLsbD_eccAdd_check _ word b.isLt, checkBit_fin]

/-! ### Linearity -/

theorem foldl_xor_xor (f g : Nat → Bool) (l : List Nat) (a b : Bool) :
    l.foldl (fun acc i => acc ^^ (f i ^^ g i)) (a ^^ b) =
      (l.foldl (fun acc i => acc ^^ f i) a ^^ l.foldl (fun acc i => acc ^^ g i) b) := by
  induction l generalizing a b with
  | nil => rfl
  | cons i l ih =>
    have hswap : (a ^^ b ^^ (f i ^^ g i)) = ((a ^^ f i) ^^ (b ^^ g i)) := by
      simp only [Bool.xor_assoc, Bool.xor_left_comm]
    rw [List.foldl_cons, hswap, ih, List.foldl_cons, List.foldl_cons]

theorem parity_xor {n : Nat} (x y : BitVec n) : parity (x ^^^ y) = (parity x ^^ parity y) := by
  simpa only [parity, BitVec.getLsbD_xor, Bool.xor_self] using
    foldl_xor_xor x.getLsbD y.getLsbD (List.range n) false false

theorem xor_and_distrib {n : Nat} (x y m : BitVec n) : (x ^^^ y) &&& m = (x &&& m) ^^^ (y &&& m) := by
  apply BitVec.eq_of_getLsbD_eq
  intro i _
  simp only [BitVec.getLsbD_xor, BitVec.getLsbD_and, Bool.and_xor_distrib_right]

theorem checkBit_xor (t : Tables) (u v : Word) (k : Nat) :
    checkBit t (u ^^^ v) k = (checkBit t u k ^^ checkBit t v k) := by
  rw [checkBit, xor_and_distrib, parity_xor, checkBit, checkBit]

/-- ECC.ADD is affine: its offset is the inversion. -/
theorem eccAdd_xor (t : Tables) (u v : Word) : eccAdd t (u ^^^ v) = eccAdd t u ^^^ eccAdd t v ^^^ t.hsiaoInv := by
  apply BitVec.eq_of_getLsbD_eq
  intro i hi
  have hcancel : ∀ a b c : Bool, (a ^^ b ^^ c) = ((a ^^ c) ^^ (b ^^ c) ^^ c) := by decide
  simp only [BitVec.getLsbD_xor, getLsbD_eccAdd _ _ hi, checkBit_xor]
  split <;> exact hcancel _ _ _

/-! ### The syndrome

A codeword with the bits of `e` flipped passes ECC.CHK exactly where the syndrome of `e` is zero. The syndrome is
linear, so that of one flipped bit is a column of the code's parity-check matrix and that of two flipped bits the sum of
two columns. -/

/-- What `v` differs by from the codeword of its data bits, the inversion taken out. -/
def syndrome (t : Tables) (v : Codeword) : Codeword := t.hsiaoInv ^^^ (eccAdd t (v.extractLsb' 0 32) ^^^ v)

theorem syndrome_xor (t : Tables) (u v : Codeword) : syndrome t (u ^^^ v) = syndrome t u ^^^ syndrome t v := by
  simp only [syndrome, BitVec.extractLsb'_xor, eccAdd_xor]
  ac_rfl

theorem eccChk_eccAdd (hinv : t.hsiaoInv.extractLsb' 0 32 = 0) (w : Word) : eccChk t (eccAdd t w) = true := by
  rw [eccChk, extractLsb'_eccAdd hinv, beq_self_eq_true]

/-- ECC.CHK accepts the values whose syndrome is the inversion. -/
theorem eccChk_iff_syndrome (t : Tables) (v : Codeword) : eccChk t v = true ↔ syndrome t v = t.hsiaoInv := by
  rw [eccChk, beq_iff_eq, syndrome, xor_left_eq_self_iff, xor_eq_zero_iff]

theorem eccChk_eccAdd_xor (hinv : t.hsiaoInv.extractLsb' 0 32 = 0) (w : Word) (e : Codeword) :
    eccChk t (eccAdd t w ^^^ e) = true ↔ syndrome t e = 0 := by
  rw [eccChk_iff_syndrome, syndrome_xor, (eccChk_iff_syndrome t _).1 (eccChk_eccAdd hinv w), xor_left_eq_self_iff]

/-- Column `i` of the parity-check matrix. -/
def hsiaoColumn (t : Tables) (i : Nat) : Codeword := syndrome t (BitVec.twoPow 39 i)

/-- With HSIAO_MASKS the 39 columns are nonzero and distinct. -/
theorem nodup_hsiaoColumns : (0 :: (List.range 39).map (hsiaoColumn defaultTables)).Nodup := by decide +kernel

theorem hsiaoColumn_ne_zero {i : Nat} (hi : i < 39) : hsiaoColumn defaultTables i ≠ 0 := fun h =>
  (List.nodup_cons.1 nodup_hsiaoColumns).1 (h ▸ List.mem_map_of_mem (List.mem_range.2 hi))

theorem hsiaoColumn_injective {i j : Nat} (hi : i < 39) (hj : j < 39)
    (h : hsiaoColumn defaultTables i = hsiaoColumn defaultTables j) : i = j :=
  List.inj_on_of_nodup_map (List.nodup_cons.1 nodup_hsiaoColumns).2 (List.mem_range.2 hi) (List.mem_range.2 hj) h

theorem eccChk_flipped (w : Word) (e : Codeword) (h : syndrome defaultTables e ≠ 0) :
    eccChk defaultTables (eccAdd defaultTables w ^^^ e) = false :=
  Bool.eq_false_iff.2 (mt (eccChk_eccAdd_xor rfl w e).1 h)

/-- Settles O53: one flip has a nonzero column for its syndrome, two flips the sum of two distinct columns. -/
theorem eccDetectsSingleAndDoubleErrors : Obligations.EccDetectsSingleAndDoubleErrors := by
  intro w
  refine ⟨eccChk_eccAdd rfl w, fun i hi => eccChk_flipped w _ (hsiaoColumn_ne_zero hi), fun i j hij hj => ?_⟩
  rw [BitVec.xor_assoc]
  apply eccChk_flipped
  rw [syndrome_xor, Ne, xor_eq_zero_iff]
  exact fun h => hij.ne (hsiaoColumn_injective (hij.trans hj) hj h)

end Sys2Proof.Machine
end

section
/-! PROOF. The digests: the hash input and its slots (43_descrambling_pipeline.md R198, R199), the byte views of the digest
buffers (R201, R202) and LOAD.END (R196). -/

namespace Sys2Proof.Machine

/-! ### Lists cut into pieces of one length -/

theorem length_flatMap_of_length {α β : Type} {f : α → List β} {n : Nat} (hf : ∀ a, (f a).length = n) (l : List α) :
    (l.flatMap f).length = n * l.length := by
  simp [List.length_flatMap, hf, Nat.mul_comm]

/-- Piece `i` of a list put together from pieces of length `n`. -/
theorem take_drop_flatMap {α β : Type} {f : α → List β} {n : Nat} (hf : ∀ a, (f a).length = n) {l : List α} {i : Nat}
    (h : i < l.length) : ((l.flatMap f).drop (n * i)).take n = f l[i] := by
  induction l generalizing i with
  | nil => exact absurd h (Nat.not_lt_zero i)
  | cons a l ih =>
    rw [List.flatMap_cons]
    cases i with
    | zero => exact List.take_left' (hf a)
    | succ i =>
      rw [Nat.mul_succ, Nat.add_comm, ← List.drop_drop, List.drop_left' (hf a)]
      exact ih (Nat.lt_of_succ_lt_succ h)

/-! ### The hash input -/

/-- The decoded form of a slot below 2^39 is its word as LOAD.WORD decodes it (43_descrambling_pipeline.md R198). -/
theorem slotValue_decoded32 {s : State} (hform : s.cfg.hashSlotForm = .decoded32) (i : Nat) {v : DWord}
    (hv : v.toNat < 2 ^ 39) : slotValue s i v = ((descrambledCodeword s i v).extractLsb' 0 32).toNat := by
  simp only [slotValue, hform, decodePayload_some s i hv]

theorem length_hashInput (s : State) : (hashInput s).length = 8 * s.acc.length := by
  rw [hashInput, length_flatMap_of_length fun _ => length_leBytes 8 _, List.length_zipIdx]

/-- Settles O37: the hash input is put together from the eight bytes of each slot. -/
theorem hashInputLayout : Obligations.HashInputLayout := by
  intro s hacc
  have hlength : (hashInput s).length = 8 * (romWords s.cfg - 8) := by rw [length_hashInput, hacc]
  refine ⟨hlength, fun hN => ?_, fun i hi => ?_, fun hform i v => ?_, fun hform i v => ?_, fun hform i v hv => ?_⟩
  · rw [hlength, hN]
  · rw [hashInput, take_drop_flatMap (fun _ => length_leBytes 8 _) (by simpa using hi)]
    simp
  · rw [slotValue, hform]
  · simp only [slotValue, hform, BitVec.extractLsb'_toNat, Nat.shiftRight_zero]
  · exact slotValue_decoded32 hform i hv

/-! ### The byte views of the digest buffers -/

/-- Four bytes, or fewer where the list ends, fit the word they are read into. -/
theorem toNat_digestOfBytes (c : Config) (bs : List Byte) (j : Fin 8) :
    (digestOfBytes c bs)[j].toNat = ofBytes c.digestByteOrder ((bs.drop (4 * j.val)).take 4) := by
  have hlt : ofBytes c.digestByteOrder ((bs.drop (4 * j.val)).take 4) < 2 ^ 32 :=
    (ofBytes_lt _ _).trans_le (Nat.pow_le_pow_right (n := 256) (by decide) (List.length_take_le 4 _))
  rw [digestOfBytes, Fin.getElem_fin, Vector.getElem_ofFn, BitVec.toNat_ofNat, Nat.mod_eq_of_lt hlt]

/-- A digest buffer is read back from its byte view. -/
theorem digestOfBytes_digestBytes (c : Config) (v : Vector Word 8) : digestOfBytes c (digestBytes c v) = v := by
  ext j hj : 1
  apply BitVec.eq_of_toNat_eq
  have hbytes : ((digestBytes c v).drop (4 * j)).take 4 = bytesOf c.digestByteOrder 4 v[j].toNat :=
    take_drop_flatMap (l := v.toList) (fun w : Word => length_bytesOf _ 4 w.toNat) (by simpa using hj)
  rw [← Fin.getElem_fin (i := ⟨j, hj⟩), toNat_digestOfBytes, hbytes, ofBytes_bytesOf _ _ _ v[j].isLt]

theorem digestBytes_inj (c : Config) {u v : Vector Word 8} : digestBytes c u = digestBytes c v ↔ u = v :=
  (Function.LeftInverse.injective (digestOfBytes_digestBytes c)).eq_iff

/-- Settles O38: the byte views are equal exactly where the buffers are. -/
theorem digestComparisonIsByWords : Obligations.DigestComparisonIsByWords := by
  intro s
  rw [digestsDiffer, bne_iff_ne, Ne, digestBytes_inj, Vector.ext_iff, ← not_forall_not]
  simp [Fin.forall_iff]

/-! ### LOAD.END -/

theorem exec_loadEnd {s : State} (h : s.phase = .loading) : exec .loadEnd s = .next (finishLoad s) := by
  rw [exec, execLoadEnd, admitLoading_admitted h]

/-- Settles O36: LOAD.END's writes are those of `finishLoad`, whose comparison is by words. -/
theorem loadEndCompletes : Obligations.LoadEndCompletes := by
  intro s hloading
  refine ⟨_, _, exec_loadEnd hloading, fun j horder => ?_, fun j horder => ?_,
    digestComparisonIsByWords _⟩
  · rw [toNat_digestOfBytes, horder, ofBytes]
  · rw [toNat_digestOfBytes, horder, ofBytes]

end Sys2Proof.Machine
end

section
/-! PROOF. The nonce split (43_descrambling_pipeline.md R183) and the phases in which the configuration and load
operations are refused (R181, R182, R186, R187, R196; 70_reset_and_hazards.md R281). -/

namespace Sys2Proof.Machine

/-- Settles O25: for `W ≤ 64` the shifts keep the top `W` bits of the nonce and leave `W` zero bits below the others. -/
theorem nonceSplit : Obligations.NonceSplit := by
  intro c nonce hw
  have hpow : 2 ^ indexWidth c * 2 ^ (64 - indexWidth c) = 2 ^ 64 := by rw [← Nat.pow_add, Nat.add_sub_cancel' hw]
  refine ⟨toNat_splitAddrKey c nonce, ?_, toNat_splitDataNonce c nonce, ?_⟩
  · rw [toNat_splitAddrKey, Nat.div_lt_iff_lt_mul (Nat.two_pow_pos _), hpow]
    exact nonce.isLt
  · rw [toNat_splitDataNonce_of_le hw, Nat.mul_mod_left]

/-! ### Operations refused in their phase -/

variable {s : State} {k : State → StepResult}

theorem admitConfig_refused {already : Bool} (hs : s.phase ≠ .failed) (h : s.phase ≠ .idle ∨ already = true) :
    admitConfig s already k = .refused .configState := by
  cases hp : s.phase with
  | idle => simp [admitConfig, hp, h.resolve_left (not_not.2 hp)]
  | loading => simp [admitConfig, hp]
  | loaded => simp [admitConfig, hp]
  | failed => exact absurd hp hs

theorem admitBegin_notIdle (hs : s.phase ≠ .failed) (h : s.phase ≠ .idle) : admitBegin s k = .refused .loadState := by
  cases hp : s.phase with
  | idle => exact absurd hp h
  | loading => simp [admitBegin, hp]
  | loaded => simp [admitBegin, hp]
  | failed => exact absurd hp hs

theorem admitBegin_unconfigured (hidle : s.phase = .idle) (h : s.keySet = false ∨ s.nonceSet = false) :
    admitBegin s k = .refused .unconfigured := by
  rcases h with h | h <;> simp [admitBegin, hidle, h]

theorem admitLoading_refused (hs : s.phase ≠ .failed) (h : s.phase ≠ .loading) :
    admitLoading s k = .refused .loadState := by
  cases hp : s.phase with
  | idle => simp [admitLoading, hp]
  | loading => exact absurd hp h
  | loaded => simp [admitLoading, hp]
  | failed => exact absurd hp hs

theorem admitReset_loading (h : s.phase = .loading) : admitReset s k = .refused .loadState := by simp [admitReset, h]

/-- Settles O26: both operations run behind the admission of the configuration. -/
theorem configurationRefusals : Obligations.ConfigurationRefusals :=
  fun _ _ hs => ⟨fun h => by rw [exec, execSetKey, admitConfig_refused hs h],
    fun h => by rw [exec, execSetNonce, admitConfig_refused hs h]⟩

/-- Settles O29: each operation runs behind the admission its rule gives it. -/
theorem loadRefusals : Obligations.LoadRefusals :=
  fun _ _ _ hs => ⟨fun h => by rw [exec, execLoadBegin, admitBegin_notIdle hs h],
    fun hidle h => by rw [exec, execLoadBegin, admitBegin_unconfigured hidle h],
    fun h => by rw [exec, execLoadWord, admitLoading_refused hs h],
    fun h => by rw [exec, execLoadEnd, admitLoading_refused hs h],
    fun h => by rw [exec, execReset, admitReset_loading h]⟩

/-- Settles O28: LOAD.BEGIN's writes are those of `beginLoad`. -/
theorem loadBeginCompletes : Obligations.LoadBeginCompletes :=
  fun _ hidle hkey hnonce => by rw [exec, execLoadBegin, admitBegin_admitted hidle hkey hnonce]; rfl

end Sys2Proof.Machine
end

section
/-! PROOF. LOAD.WORD with operands it accepts (43_descrambling_pipeline.md R187 to R190), and the index it cannot reach
(R191). -/

namespace Sys2Proof.Machine

variable {i : Instr} {s t : State} {sidx : Word} {spay : DWord} {idx : Nat}

/-! ### A word that is accepted -/

/-- Steps 1 and 2 of LOAD.WORD for a scrambled index that decodes inside the store. -/
theorem execLoadWord_eq_loadAt (hloading : s.phase = .loading) (hw : indexWidth s.cfg ≤ 64)
    (hkey : s.addrKey.toNat < 2 ^ indexWidth s.cfg) (hsidx : sidx.toNat < 2 ^ indexWidth s.cfg)
    (hidx : descrambledIndex s sidx < romWords s.cfg) :
    execLoadWord sidx spay s = loadAt s (descrambledIndex s sidx) spay := by
  rw [execLoadWord, admitLoading_admitted hloading, logicalIndex_eq hw hkey hsidx, if_neg (Nat.not_le.2 hidx)]

/-- Steps 3 to 9 of LOAD.WORD for a payload below 2^39. -/
theorem loadAt_of_payload_lt (hidx : idx < romWords s.cfg) (hspay : spay.toNat < 2 ^ 39) :
    loadAt s idx spay =
      .next (withStore (checkDecoded (recordPayload s idx spay) idx (descrambledCodeword s idx spay))
        (s.store.writeBytes (idx * 4) (storeBytes s.cfg ((descrambledCodeword s idx spay).extractLsb' 0 32)))) := by
  simp only [loadAt, decodePayload_some _ idx hspay, descrambledCodeword_recordPayload]
  rw [memWrite_inside (by simpa [checkDecoded_eq] using word_inside hidx)]
  simp [checkDecoded_eq]

/-- The digest region is the indices from `N − 8` on (43_descrambling_pipeline.md R189). -/
theorem reserved_iff (c : Config) (idx : Nat) : reserved c idx = true ↔ romWords c - 8 ≤ idx := by
  rw [reserved, decide_eq_true_iff, digestWords]

theorem reserved_eq_false_iff (c : Config) (idx : Nat) : reserved c idx = false ↔ idx < romWords c - 8 := by
  rw [← Bool.not_eq_true, reserved_iff, Nat.not_le]

/-- Settles O30: the composite of the nine steps, written as one record update. -/
theorem loadWordCompletes : Obligations.LoadWordCompletes := by
  intro s sidx spay hloading hw hkey hsidx hidx hspay n idx plain
  have hexec : exec (.loadWord sidx spay) s = _ :=
    (execLoadWord_eq_loadAt hloading hw hkey hsidx hidx).trans (loadAt_of_payload_lt hidx hspay)
  simp only [hexec, checkDecoded_eq, recordPayload_eq, withStore, Bool.and_eq_true, Bool.not_eq_true',
    reserved_eq_false_iff, reserved_iff, storeBytes, digestWords, n, idx, plain]

/-! ### The index no word reaches -/

/-- A decoded index is below `2^W`, and `W` bits are no more than `N − 1 = 2^k` needs. -/
theorem descrambledIndex_lt_top {k : Nat} (hN : romWords s.cfg = 2 ^ k + 1) (sidx : Word) :
    descrambledIndex s sidx < romWords s.cfg - 1 := by
  have hw : indexWidth s.cfg ≤ k := (indexWidth_le_iff _ _).2 (by rw [hN]; exact Nat.le_refl _)
  calc descrambledIndex s sidx < 2 ^ indexWidth s.cfg := descrambledIndex_lt s sidx
    _ ≤ 2 ^ k := Nat.pow_le_pow_right Nat.two_pos hw
    _ = romWords s.cfg - 1 := by rw [hN, Nat.add_sub_cancel]

/-- Recording a payload writes the last expected word at index `N − 1` only. -/
theorem recordPayload_expected_last (h : idx < romWords s.cfg - 1) :
    (recordPayload s idx spay).expected[7] = s.expected[7] := by
  simp only [recordPayload_expected, digestWords]
  split
  · exact Vector.getElem_setIfInBounds_ne _ (by omega)
  · rfl

/-- LOAD.BEGIN clears the last expected word; no other operation writes it where index `N − 1` is unreachable. -/
theorem effect_expected_last {k : Nat} (hN : romWords s.cfg = 2 ^ k + 1) (e : Effect i s t) :
    t.expected[7] = s.expected[7] ∨ t.expected[7] = 0 := by
  have hrecord {sidx idx spay} (index : logicalIndex s sidx = .index idx) :
      (recordPayload s idx spay).expected[7] = s.expected[7] := by
    obtain ⟨rfl, -⟩ := logicalIndex_index index
    exact recordPayload_expected_last (descrambledIndex_lt_top hN sidx)
  cases e with
  | loadBegin => exact .inr (by simp)
  | payloadFatal _ _ _ _ _ index => exact .inl (by simpa using hrecord index)
  | loadWord _ _ _ _ _ _ index => exact .inl (by simpa [checkDecoded_eq] using hrecord index)
  | _ => exact .inl (by simp [alertTest_eq, finishLoad])

/-- No operation writes a byte from word `N − 1` on where index `N − 1` is unreachable. -/
theorem effect_store_top {k a : Nat} (hN : romWords s.cfg = 2 ^ k + 1) (e : Effect i s t)
    (ha : (romWords s.cfg - 1) * 4 ≤ a) : t.store.read a = s.store.read a := by
  obtain hsame | ⟨sidx, _, _, -, -, hstore⟩ := effect_store e
  · rw [hsame]
  · have hlt := descrambledIndex_lt_top hN sidx
    rw [hstore]
    exact Memory.read_writeBytes_outside _ (.inr (by rw [length_storeBytes]; omega))

/-- Settles O35: every index is below `N − 1`, so neither the last expected word nor the last store word is written. -/
theorem topIndexIsUnreachable : Obligations.TopIndexIsUnreachable := by
  intro s t k hN _ hstep
  refine ⟨fun sidx => (descrambledIndex_lt_top hN sidx).ne, ?_⟩
  obtain ⟨-, -, rfl⟩ | ⟨_, rest, _, -, -, heffect⟩ := step_next hstep
  · exact ⟨id, fun _ _ _ => rfl⟩
  · refine ⟨fun hzero => ?_, fun a ha _ => ?_⟩
    · obtain hsame | hclear := effect_expected_last (s := withPending s rest) hN heffect
      · exact hsame.trans hzero
      · exact hclear
    · exact effect_store_top (s := withPending s rest) hN heffect ha

end Sys2Proof.Machine
end

section
/-! PROOF. The register file (44_register_interface.md): in which phases a bus access is admitted (R205), and what each
row returns and writes where it is (R207 to R247). -/

namespace Sys2Proof.Machine

/-! ### Admission -/

/-- Settles O15: every row runs behind the one admission of the bus, and answers a next state wherever that lets it. -/
theorem busAdmission : Obligations.BusAdmission := by
  intro i s bus
  obtain ⟨k, hnext, hexec⟩ := exec_bus bus
  rw [hexec]
  refine ⟨fun admitted => ?_, admitBus_loading, admitBus_failed⟩
  rw [admitBus_admitted admitted]
  exact hnext s

/-! ### Reads -/

/-- Settles O9: the j-th operation is an admitted read of word j of the observed digest. -/
theorem digestReadsComplete : Obligations.DigestReadsComplete := by
  intro s admitted
  have read (v : State → Word) := busRead_admitted (v := v) admitted
  exact ⟨read (·.observed[0]), read (·.observed[1]), read (·.observed[2]), read (·.observed[3]),
    read (·.observed[4]), read (·.observed[5]), read (·.observed[6]), read (·.observed[7])⟩

/-- Settles O10: the j-th operation is an admitted read of word j of the expected digest. -/
theorem expectedDigestReadsComplete : Obligations.ExpectedDigestReadsComplete := by
  intro s admitted
  have read (v : State → Word) := busRead_admitted (v := v) admitted
  exact ⟨read (·.expected[0]), read (·.expected[1]), read (·.expected[2]), read (·.expected[3]),
    read (·.expected[4]), read (·.expected[5]), read (·.expected[6]), read (·.expected[7])⟩

/-- FatalAlertCause holds the checker flag below the integrity flag (R212). -/
theorem getLsbD_fatalAlertCause (s : State) (b : Nat) : (fatalAlertCause s).getLsbD b =
    if b = 0 then s.checkerError else if b = 1 then s.integrityError else false := by
  rw [fatalAlertCause, BitVec.getLsbD_setWidth, BitVec.getLsbD_append]
  match b with
  | 0 | 1 | b + 2 => simp

/-- Settles O11: both operations are admitted reads, of the constant 0 and of the cause word. -/
theorem alertRegisterReadsComplete : Obligations.AlertRegisterReadsComplete := by
  intro s admitted
  have read (v : State → Word) := busRead_admitted (v := v) admitted
  refine ⟨read fun _ => 0, fatalAlertCause s, read fatalAlertCause, ?_, ?_, fun b hb => ?_⟩
  · exact getLsbD_fatalAlertCause s 0
  · exact getLsbD_fatalAlertCause s 1
  · rw [getLsbD_fatalAlertCause, if_neg (by omega), if_neg (by omega)]

/-! ### Writes -/

/-- Settles O12: each of the 17 operations is an admitted write that is ignored. -/
theorem readOnlyWritesAreIgnored : Obligations.ReadOnlyWritesAreIgnored := by
  intro s w admitted
  and_intros <;> exact busIgnore_admitted admitted

/-- Settles O13: with bit 0 set the write is `alertTest`, which counts an event under ALERT_RETRIGGER or a clear latch. -/
theorem alertTestWriteCompletes : Obligations.AlertTestWriteCompletes := by
  intro s w admitted
  rw [exec_wrAlertTest, admitBus_admitted admitted]
  refine ⟨fun bit fires => ?_, fun bit once latched => ?_, fun bit => ?_⟩
  · have emits : (s.cfg.alertRetrigger || !s.alertLatched) = true := by simpa using fires
    rw [if_pos bit, alertTest_eq, if_pos emits]
  · rw [if_pos bit, alertTest_eq, once, latched]
    rfl
  · rw [bit]
    rfl

/-! ### Unknown offsets -/

/-- Settles O14: the two default rows, admitted. -/
theorem unknownOffsetAccessesComplete : Obligations.UnknownOffsetAccessesComplete := by
  intro s offset w admitted
  rw [exec_rdUnknown, exec_wrUnknown, admitBus_admitted admitted, admitBus_admitted admitted]
  exact ⟨rfl, rfl⟩

end Sys2Proof.Machine
end

section
/-! PROOF. The checker flag without the integrity flag (44_register_interface.md R212, corner cases; assumption log 13):
a run from power-on that reaches it. -/

namespace Sys2Proof.Machine

/-- What every step keeps holds along a run. -/
theorem run_keeps {P : State → Prop} (hstep : ∀ s t, P s → step s = .next t → P t) {n : Nat} {s t : State}
    (hs : P s) (h : run n s = .next t) : P t := by
  induction n generalizing s with
  | zero =>
    cases h
    exact hs
  | succ n ih =>
    rw [run] at h
    cases hu : step s with
    | next u =>
      rw [hu] at h
      exact ih (hstep s u hs hu) h
    | fault f => simp [hu] at h
    | refused r => simp [hu] at h

/-- The eight digest words of the store of V24 (95_test_vectors.md), `N = 12`, at the scrambled indices of the logical
indices 4 to 11. They are the digest of four zero payload slots (V19), so the digests agree. -/
def agreeingImage : List (Word × DWord) := [
  (0x7, 0x91E20C5E), (0x5, 0x377864B9), (0xB, 0xF7E2E95E), (0xE, 0xF9603BC7),
  (0xF, 0x208932BD), (0xD, 0x85AFD44A), (0x2, 0x8824467F), (0xC, 0xE3DCDFA7)]

/-- Power-on of that store, with key and nonce zero, an alert test in Idle and the load of the image issued. -/
def alertTestThenLoad : State :=
  withPending (State.construct { defaultConfig with romBytes := 48 })
    ([encode (.setKey (List.replicate 16 0)), encode (.setNonce (List.replicate 8 0)), encode (.wrAlertTest 1)] ++
      expandLoad agreeingImage)

/-- The checker and integrity flags of the next state, if there is one. -/
def flagsAfter : StepResult → Option (Bool × Bool)
  | .next t => some (t.checkerError, t.integrityError)
  | .fault _ => none
  | .refused _ => none

theorem flagsAfter_eq_some {o : StepResult} {checker integrity : Bool} (h : flagsAfter o = some (checker, integrity)) :
    ∃ t, o = .next t ∧ t.checkerError = checker ∧ t.integrityError = integrity := by
  cases o with
  | next t => exact ⟨t, rfl, by simpa [flagsAfter] using h⟩
  | fault f => cases h
  | refused r => cases h

/-- The 13 operations complete, and LOAD.END clears the integrity flag alone (43_descrambling_pipeline.md R196). -/
theorem flagsAfter_alertTestThenLoad : flagsAfter (run 13 alertTestThenLoad) = some (true, false) := by decide +kernel

/-- The remark of R212, on a state that meets the invariant. -/
def CheckerOnlyWithIntegrity (s : State) : Prop := s.Inv ∧ (s.checkerError = true → s.integrityError = true)

theorem checkerOnlyWithIntegrity_alertTestThenLoad : CheckerOnlyWithIntegrity alertTestThenLoad :=
  ⟨inv_withPending (inv_construct _) _, nofun⟩

/-- Refutes O20: were the remark kept by every step, it would hold at the end of this run from power-on. -/
theorem not_checkerErrorNeverStandsAlone : ¬ Obligations.CheckerErrorNeverStandsAlone := by
  intro hkept
  have hstep (s t : State) (hs : CheckerOnlyWithIntegrity s) (h : step s = .next t) : CheckerOnlyWithIntegrity t :=
    ⟨stepKeepsInvariant s t hs.1 h, hkept s t hs.1 hs.2 h⟩
  obtain ⟨t, hrun, hchecker, hintegrity⟩ := flagsAfter_eq_some flagsAfter_alertTestThenLoad
  obtain ⟨-, htogether⟩ := run_keeps hstep checkerOnlyWithIntegrity_alertTestThenLoad hrun
  exact Bool.false_ne_true (hintegrity.symm.trans (htogether hchecker))

end Sys2Proof.Machine
end

section
/-! PROOF. After a fatal error: every operation is refused and the record stays (60_exceptions.md R250), and a step faults
on nothing else (20_memory.md R53). -/

namespace Sys2Proof.Machine

variable {i : Instr} {s t : State}

/-! ### What every operation answers -/

/-- What every operation answers in `s`: AfterFault in Failed (60_exceptions.md R250), and in no phase a fault, which only a
store write out of range would give (20_memory.md R53). -/
structure Guarded (s : State) (r : StepResult) : Prop where
  afterFault : s.phase = .failed → r = .refused .afterFault
  noFault : ∀ f, r ≠ .fault f

section Admission

variable {k : State → StepResult} (hk : ∀ f, k s ≠ .fault f)
include hk

theorem guarded_admitBus : Guarded s (admitBus s k) where
  afterFault := admitBus_failed
  noFault f := by unfold admitBus; split <;> simp [hk]

theorem guarded_admitConfig (already : Bool) : Guarded s (admitConfig s already k) where
  afterFault h := by simp [admitConfig, h]
  noFault f := by
    unfold admitConfig
    split
    · split
      · nofun
      · exact hk f
    all_goals nofun

theorem guarded_admitBegin : Guarded s (admitBegin s k) where
  afterFault h := by simp [admitBegin, h]
  noFault f := by
    unfold admitBegin
    split
    · split
      · exact hk f
      · nofun
    all_goals nofun

theorem guarded_admitLoading : Guarded s (admitLoading s k) where
  afterFault h := by simp [admitLoading, h]
  noFault f := by unfold admitLoading; split <;> simp [hk]

theorem guarded_admitReset : Guarded s (admitReset s k) where
  afterFault h := by simp [admitReset, h]
  noFault f := by unfold admitReset; split <;> simp [hk]

theorem guarded_admitPrim : Guarded s (admitPrim s k) where
  afterFault h := by simp [admitPrim, h]
  noFault f := by unfold admitPrim; split <;> simp [hk]

end Admission

/-- The word of an index below `N` is inside the store, so its write does not fault. -/
theorem loadAt_ne_fault {idx : Nat} (hidx : idx < romWords s.cfg) (spay : DWord) (f : Fault) :
    loadAt s idx spay ≠ .fault f := by
  unfold loadAt
  dsimp only
  split
  · nofun
  · rw [memWrite_inside (by simpa [checkDecoded_eq] using word_inside hidx)]
    nofun

theorem guarded_setKey (kbytes : List Byte) : Guarded s (exec (.setKey kbytes) s) := by
  apply guarded_admitConfig
  intro f
  split <;> nofun

theorem guarded_setNonce (nbytes : List Byte) : Guarded s (exec (.setNonce nbytes) s) := by
  apply guarded_admitConfig
  intro f
  split <;> nofun

theorem guarded_loadWord (sidx : Word) (spay : DWord) : Guarded s (exec (.loadWord sidx spay) s) := by
  apply guarded_admitLoading
  intro f
  split
  · nofun
  · nofun
  next hindex => exact loadAt_ne_fault (logicalIndex_index hindex).2 spay f

theorem guarded_lbc (r : State → LbcResult) : Guarded s (admitPrim s fun s => answerLbc s (r s)) :=
  guarded_admitPrim fun f => by cases r s <;> nofun

theorem guarded_rbcEnc (data k1 k0 : DWord) (width rounds : Nat) :
    Guarded s (exec (.rbcEnc data k1 k0 width rounds) s) := by
  apply guarded_admitPrim
  intro f
  split_ifs <;> nofun

/-- Every operation runs behind an admission (60_exceptions.md R255). -/
theorem exec_guarded (i : Instr) (s : State) : Guarded s (exec i s) := by
  cases i
  case setKey => exact guarded_setKey _
  case setNonce => exact guarded_setNonce _
  case loadBegin => apply guarded_admitBegin; nofun
  case loadWord => exact guarded_loadWord _ _
  case loadEnd => apply guarded_admitLoading; nofun
  case reset => apply guarded_admitReset; nofun
  case lbcEnc d k w r => exact guarded_lbc fun s => lbcEnc s.cfg d k w r
  case lbcDec d k w r => exact guarded_lbc fun s => lbcDec s.cfg d k w r
  case rbcEnc => exact guarded_rbcEnc _ _ _ _ _
  case eccAdd | eccChk => apply guarded_admitPrim; nofun
  all_goals apply guarded_admitBus; nofun

theorem exec_of_failed (i : Instr) (h : s.phase = .failed) : exec i s = .refused .afterFault :=
  (exec_guarded i s).afterFault h

/-! ### Steps -/

theorem step_cons_ne_fault {r : Request} {rest : List Request} (hp : s.pending = r :: rest) (f : Fault) :
    step s ≠ .fault f := by
  cases hd : decode r with
  | ok i =>
    rw [step_cons hp hd]
    exact (exec_guarded i _).noFault f
  | error e =>
    obtain ⟨why, hwhy⟩ := refuseUndecoded_refuses e (withPending s rest)
    rw [step_cons_error hp hd, hwhy]
    nofun

/-- Settles O58: with a request pending no step faults; with none it is the fatal record that decides. -/
theorem stepFaultsOnlyOnAFatalError : Obligations.StepFaultsOnlyOnAFatalError := by
  intro s f
  cases hp : s.pending with
  | nil =>
    rw [step_nil hp]
    cases hf : s.fatal with
    | none => simp [idleStep_none hf]
    | some record => simp [idleStep_some hf, eq_comm]
  | cons r rest => simp [step_cons_ne_fault hp f]

/-! ### The fatal record -/

/-- No operation clears the record: the fatal errors write one, and nothing else touches it. -/
theorem effect_fatal (e : Effect i s t) (h : s.fatal ≠ none) : t.fatal ≠ none := by
  cases e with
  | keyFormat | nonceFormat | indexFatal | payloadFatal => simp
  | _ => simpa [alertTest_eq, checkDecoded_eq, finishLoad] using h

/-- An operation is admitted in Idle, Loading or Loaded only. -/
theorem effect_phase_ne_failed (e : Effect i s t) : s.phase ≠ .failed := by
  cases e with
  | same admitted | read _ admitted | readUnknown _ admitted | writeUnknown _ _ admitted | test _ admitted
  | reset admitted => rcases admitted with h | h <;> simp [h]
  | keyFormat _ idle | setKey _ idle | nonceFormat _ idle | setNonce _ _ idle | loadBegin idle => simp [idle]
  | indexFatal _ _ _ _ loading | payloadFatal _ _ _ loading | loadWord _ _ _ _ loading | loadEnd loading =>
    simp [loading]
  | primitive _ admitted => exact admitted

/-- In a state that records a fatal error a step that answers a next state has served an operation. -/
theorem step_next_of_fatal (hf : s.fatal ≠ none) (h : step s = .next t) :
    ∃ r rest i, s.pending = r :: rest ∧ Effect i (withPending s rest) t := by
  obtain ⟨-, hnone, -⟩ | ⟨r, rest, i, hp, -, e⟩ := step_next h
  · exact absurd hnone hf
  · exact ⟨r, rest, i, hp, e⟩

/-- Settles O55: every operation runs behind an admission that refuses it in Failed, and no effect clears a record; a step
that answers a next state takes a request, so it never answers the state itself. -/
theorem failedIsTerminal : Obligations.FailedIsTerminal := by
  refine ⟨fun i s => exec_of_failed i, fun s code info => ⟨rfl, fun i => exec_of_failed i rfl⟩,
    fun s record hf hp => ?_, fun s hf h => ?_, fun s t hf h => ?_, fun s t hinv hf h => ?_⟩
  · rw [step_nil hp, idleStep_some hf]
  · obtain ⟨r, rest, i, hp, e⟩ := step_next_of_fatal hf h
    have htaken : s.pending = rest := effect_pending e
    exact List.cons_ne_self r rest (hp.symm.trans htaken)
  · obtain ⟨r, rest, i, -, e⟩ := step_next_of_fatal hf h
    exact effect_fatal e hf
  · obtain ⟨r, rest, i, -, e⟩ := step_next_of_fatal hf h
    exact effect_phase_ne_failed e (hinv.failedFatal.2 hf)

end Sys2Proof.Machine
end

section
/-! PROOF. The fatal errors and what each records (60_exceptions.md R251 to R257). -/

namespace Sys2Proof.Machine

variable {s : State} {sidx : Word} {spay : DWord} {idx : Nat}

/-! ### Construction -/

/-- A size that is not admitted selects the Failed branch of construction. -/
theorem construct_of_romSize_refused {c : Config} (h : c.romBytes ≤ 32 ∨ c.romBytes % 4 ≠ 0) :
    (State.construct c).phase = .failed ∧ (State.construct c).fatal = some ⟨.romSize, c.romBytes⟩ := by
  have hok : ¬ romSizeOk c = true := by
    rw [romSizeOk_iff]
    omega
  exact ⟨if_neg hok, if_neg hok⟩

/-- Settles O7: the size selects the branch of construction; the examples evaluate `N` and `W`. -/
theorem romSizeConstructionError : Obligations.RomSizeConstructionError := by
  refine ⟨fun c hsize => ?_, rfl, fun c hsize => ?_, fun c hsize => ?_, fun c hidle => ?_⟩
  · obtain ⟨hphase, hfatal⟩ := construct_of_romSize_refused hsize
    exact ⟨hphase, hfatal, fun i => exec_of_failed i hphase⟩
  · exact (construct_of_romSize_refused (by omega)).1
  · have hwords : romWords c = 9 := by rw [romWords, hsize]
    exact ⟨if_pos ((romSizeOk_iff c).2 (by omega)), hwords, by rw [indexWidth, hwords]; rfl⟩
  · by_contra hlt
    obtain ⟨hfailed, -⟩ := construct_of_romSize_refused (c := c) (by omega)
    cases hidle.symm.trans hfailed

/-! ### The index of LOAD.WORD -/

/-- A fatal error of steps 1 and 2 ends LOAD.WORD before anything is written. -/
theorem execLoadWord_of_fatal {code : FatalCode} {info : Nat} (hloading : s.phase = .loading)
    (hindex : logicalIndex s sidx = .fatal code info) : execLoadWord sidx spay s = .next (raiseFatal s code info) := by
  rw [execLoadWord, admitLoading_admitted hloading, hindex]

/-- Settles O33: both errors come from steps 1 and 2, the one from the cipher's domain, the other from its value. -/
theorem indexErrorsAreFatal : Obligations.IndexErrorsAreFatal := by
  refine ⟨fun s sidx spay hloading hwide => ?_, fun s sidx spay hloading hw hkey hsidx hrange => ?_, rfl, rfl⟩
  · exact execLoadWord_of_fatal hloading (logicalIndex_width hwide)
  · exact execLoadWord_of_fatal hloading ((logicalIndex_eq hw hkey hsidx).trans (if_pos hrange))

/-! ### The payload of LOAD.WORD -/

/-- A payload of 2^39 or more ends LOAD.WORD at step 5, after it is recorded and before the store is written. -/
theorem loadAt_of_payload_ge (hspay : 2 ^ 39 ≤ spay.toNat) :
    loadAt s idx spay = .next (raiseFatal (recordPayload s idx spay) .payloadWidth spay.toNat) := by
  simp only [loadAt, decodePayload_none _ idx hspay]

/-- Settles O34: the record made at steps 3 and 4 is the only write beside the fatal error's own. -/
theorem payloadErrorKeepsEarlierWrites : Obligations.PayloadErrorKeepsEarlierWrites := by
  refine ⟨fun s sidx spay hloading hw hkey hsidx hidx hspay => ?_, rfl⟩
  have hexec : exec (.loadWord sidx spay) s = _ :=
    (execLoadWord_eq_loadAt hloading hw hkey hsidx hidx).trans (loadAt_of_payload_ge hspay)
  simp only [hexec, raiseFatal, recordPayload_eq, reserved_iff, digestWords]

/-! ### Key and nonce -/

/-- Settles O24: the length is looked at once the operation is admitted, before anything is written. -/
theorem malformedKeyAndNonceAreFatal : Obligations.MalformedKeyAndNonceAreFatal := by
  refine ⟨fun s kbytes hidle hunset hlen => ?_, fun s nbytes hidle hunset hlen => ?_, rfl, rfl⟩
  · rw [exec, execSetKey, admitConfig_admitted hidle hunset, if_pos hlen]
    rfl
  · rw [exec, execSetNonce, admitConfig_admitted hidle hunset, if_pos hlen]
    rfl

end Sys2Proof.Machine
end

section
/-! PROOF. Which operation fires the alert (60_exceptions.md R261). -/

namespace Sys2Proof.Machine

variable {i : Instr} {s t : State}

theorem format_of_isAlertTest (h : isAlertTest i = true) : i.format = .bus := by
  unfold isAlertTest at h
  split at h
  · rfl
  · cases h

/-- The alert test with bit 0 set is the one operation that writes the count, and ALERT_RETRIGGER or a clear latch makes it
count one. -/
theorem effect_alertEvents (e : Effect i s t) : t.alertEvents =
    if isAlertTest i && (s.cfg.alertRetrigger || !s.alertLatched) then s.alertEvents + 1 else s.alertEvents := by
  cases e with
  | test w _ op bit => simp [op, isAlertTest, bit, alertTest_eq]
  | same _ _ noTest | read _ _ _ noTest => simp [noTest]
  | primitive _ _ prim =>
    have noTest : isAlertTest i = false :=
      Bool.eq_false_iff.2 fun test => nomatch (format_of_isAlertTest test).symm.trans prim
    simp [noTest]
  | _ => simp_all [isAlertTest, checkDecoded_eq, finishLoad]

/-- Settles O21: the operation decides whether the count is written at all, ALERT_RETRIGGER that it is. -/
theorem onlyTheAlertTestFiresTheAlert : Obligations.OnlyTheAlertTestFiresTheAlert := by
  intro i s t h
  rw [effect_alertEvents (exec_next h)]
  exact ⟨fun noTest => by simp [noTest], fun test retrigger => by simp [test, retrigger]⟩

end Sys2Proof.Machine
end

section
/-! PROOF. The host operation RESET (70_reset_and_hazards.md R281 to R283). -/

namespace Sys2Proof.Machine

variable {i : Instr} {s t : State}

/-! ### What RESET answers -/

theorem exec_reset (admitted : s.phase = .idle ∨ s.phase = .loaded) :
    exec .reset s = .next (resetFlags s (digestsDiffer s)) := by
  rw [exec, execReset, admitReset_admitted admitted]

theorem exec_reset_next (h : exec .reset s = .next t) :
    (s.phase = .idle ∨ s.phase = .loaded) ∧ t = resetFlags s (digestsDiffer s) := by
  rw [exec, execReset] at h
  obtain ⟨admitted, h⟩ := admitReset_next h
  cases h
  exact ⟨admitted, rfl⟩

/-! ### The comparison -/

/-- The comparison reads the byte order and the two digest buffers, none of which RESET writes. -/
@[simp] theorem digestsDiffer_resetFlags (s : State) (mismatch : Bool) :
    digestsDiffer (resetFlags s mismatch) = digestsDiffer s := rfl

theorem digestsDiffer_of_eq (h : s.observed = s.expected) : digestsDiffer s = false := by
  rw [digestsDiffer, h, bne_self_eq_false]

theorem exec_loadEnd_next (h : exec .loadEnd s = .next t) : t = finishLoad s := by
  rw [exec, execLoadEnd] at h
  obtain ⟨-, h⟩ := admitLoading_next h
  cases h
  rfl

/-- LOAD.END sets the integrity flag to the comparison that RESET makes in the state it leaves
(43_descrambling_pipeline.md R196). -/
theorem finishLoad_integrityError (s : State) : (finishLoad s).integrityError = digestsDiffer (finishLoad s) := rfl

/-- Settles O42: RESET's writes are those of `resetFlags`; in Idle both buffers are zero and so equal. -/
theorem resetCompletes : Obligations.ResetCompletes := by
  refine fun s admitted =>
    ⟨digestsDiffer s, exec_reset admitted, digestComparisonIsByWords s, fun hinv hidle => ?_⟩
  obtain ⟨hexpected, hobserved⟩ := hinv.idleBuffers hidle
  exact digestsDiffer_of_eq (hobserved.trans hexpected.symm)

/-! ### RESET after other operations -/

/-- The block is Loaded, and a comparison of its digest buffers gives `mismatch`. -/
def LoadedWith (mismatch : Bool) (s : State) : Prop := s.phase = .loaded ∧ digestsDiffer s = mismatch

/-- No operation admitted in Loaded leaves that phase or writes a digest buffer. -/
theorem effect_loadedWith {mismatch : Bool} (hs : LoadedWith mismatch s) (e : Effect i s t) :
    LoadedWith mismatch t := by
  obtain ⟨loaded, hdiffer⟩ := hs
  cases e with
  | keyFormat _ idle | setKey _ idle | nonceFormat _ idle | setNonce _ _ idle | loadBegin idle =>
    cases loaded.symm.trans idle
  | indexFatal _ _ _ _ loading | payloadFatal _ _ _ loading | loadWord _ _ _ _ loading | loadEnd loading =>
    cases loaded.symm.trans loading
  | test =>
    rw [alertTest_eq]
    exact ⟨loaded, hdiffer⟩
  | same | read | readUnknown | writeUnknown | reset | primitive => exact ⟨loaded, hdiffer⟩

/-- What every operation keeps holds after a list of them. -/
theorem execAll_keeps {P : State → Prop} (hexec : ∀ i s t, P s → exec i s = .next t → P t) {ops : List Instr}
    (hs : P s) (h : execAll ops s = .next t) : P t := by
  induction ops generalizing s with
  | nil =>
    cases h
    exact hs
  | cons i rest ih =>
    rw [execAll] at h
    cases hu : exec i s with
    | next u =>
      rw [hu] at h
      exact ih (hexec i s u hs hu) h
    | fault f => simp [hu] at h
    | refused r => simp [hu] at h

/-- Settles O43: neither RESET nor any operation after LOAD.END changes what the comparison gives. -/
theorem resetLaws : Obligations.ResetLaws := by
  refine ⟨fun s t h => ?_, fun s t u v ops hend hops hreset => ?_⟩
  · obtain ⟨admitted, rfl⟩ := exec_reset_next h
    exact exec_reset (s := resetFlags s _) admitted
  · obtain rfl := exec_loadEnd_next hend
    obtain ⟨-, hdiffer⟩ : LoadedWith (digestsDiffer (finishLoad s)) u :=
      execAll_keeps (fun _ _ _ hs h => effect_loadedWith hs (exec_next h)) ⟨rfl, rfl⟩ hops
    obtain ⟨-, rfl⟩ := exec_reset_next hreset
    rw [resetFlags_integrityError, hdiffer, finishLoad_integrityError]

/-- Settles O44: RESET keeps the phase Loaded, in which the three operations are refused. -/
theorem resetDoesNotReopenTheLoad : Obligations.ResetDoesNotReopenTheLoad := by
  intro s t bytes loaded h
  obtain ⟨-, rfl⟩ := exec_reset_next h
  have notFailed : (resetFlags s (digestsDiffer s)).phase ≠ .failed := by simp [loaded]
  have notIdle : (resetFlags s (digestsDiffer s)).phase ≠ .idle := by simp [loaded]
  obtain ⟨hbegin, -⟩ := loadRefusals _ 0 0 notFailed
  obtain ⟨hkey, hnonce⟩ := configurationRefusals _ bytes notFailed
  exact ⟨loaded, hbegin notIdle, hkey (.inl notIdle), hnonce (.inl notIdle)⟩

end Sys2Proof.Machine
end
